-- ==== Sys2Proof/Word.lean ====
section
/-! DEFINITION. The two word types of the block: every datum is a byte (20_memory.md R53), every command a 16-bit
word (30_encoding.md R70). Bit 0 is the least significant bit (00_scope.md R10). -/

namespace Sys2Proof

/-- A payload, wire, checksum, mask or status byte (R7, R53). -/
abbrev Byte := BitVec 8

/-- A command word (R70). -/
abbrev Word := BitVec 16

end Sys2Proof
end

