-- ==== Sys2Proof/Syntax.lean ====
section
/-! DEFINITION. The operations of the block: the 15 rows of 30_encoding.md R72 and the reserved case of R73. Only the
operands an operation has stand in its constructor: the ignored data field of R75 is no operand. -/

namespace Sys2Proof

/-- One constructor per operation of spec/opcode_table.json. -/
inductive Instr where
  /-- NOP, R100. -/
  | nop
  /-- STAT_RD, R101. -/
  | statRd
  /-- STAT_CLR with its clear mask, R102. -/
  | statClr (d : Byte)
  /-- RESET, R103. -/
  | reset
  /-- CRC_CLR, R122. -/
  | crcClr
  /-- CRC_BYTE with the byte to fold, R123. -/
  | crcByte (d : Byte)
  /-- CRC_RD, R124. -/
  | crcRd
  /-- ENC_BEGIN, R142. -/
  | encBegin
  /-- ENC_BYTE with the payload byte, R143. -/
  | encByte (d : Byte)
  /-- ENC_CRCB with the payload byte, R144. -/
  | encCrcb (d : Byte)
  /-- ENC_CRC, R145. -/
  | encCrc
  /-- ENC_END, R146. -/
  | encEnd
  /-- DEC_BYTE with the received byte, R160. -/
  | decByte (d : Byte)
  /-- DEC_POP, R165. -/
  | decPop
  /-- DEC_CLR, R166. -/
  | decClr
  /-- Any command word whose opcode R72 does not list, with that opcode, R104. -/
  | reserved (op : Byte)
deriving DecidableEq, Repr

end Sys2Proof
end

