-- ==== Sys2Proof/WellFormed.lean ====
section
/-! DEFINITION. Which terms of `Instr` stand for command words. Every data byte is a legal operand (30_encoding.md R71);
the one check is that a reserved operation carries a reserved opcode (R73). -/

namespace Sys2Proof

/-- The four ranges of R73, as it prints them. -/
def reservedOpcode (op : Byte) : Bool :=
  (0x04#8 ≤ op && op ≤ 0x0F#8) || (0x13#8 ≤ op && op ≤ 0x1F#8) || (0x25#8 ≤ op && op ≤ 0x2F#8) || 0x33#8 ≤ op

/-- The well-formedness check of an instruction. -/
def Instr.wellFormed : Instr → Bool
  | .nop => true
  | .statRd => true
  | .statClr _ => true
  | .reset => true
  | .crcClr => true
  | .crcByte _ => true
  | .crcRd => true
  | .encBegin => true
  | .encByte _ => true
  | .encCrcb _ => true
  | .encCrc => true
  | .encEnd => true
  | .decByte _ => true
  | .decPop => true
  | .decClr => true
  | .reserved op => reservedOpcode op

/-- The same check as a proposition. -/
abbrev WellFormed (i : Instr) : Prop := i.wellFormed = true

end Sys2Proof
end

