-- ==== Sys2Proof/Decode.lean ====
section
/-! DEFINITION. The command word of 30_encoding.md: its two fields (R70), the decoder over the opcode map (R72, R73),
the encoder, the mnemonics, and the rows of spec/opcode_table.json. The decoder is total (R74): no word is rejected, a
word outside the map decodes to the reserved operation that carries its opcode. -/

namespace Sys2Proof

/-- `op = w[15:8]`, R70. -/
def opField (w : Word) : Byte := w.extractLsb' 8 8

/-- `d = w[7:0]`, R70, R71. -/
def dField (w : Word) : Byte := w.extractLsb' 0 8

/-- The operation an opcode byte selects, given the data byte, by exact match on all 8 bits (R72); every other opcode
is reserved (R73). -/
def decodeFields (op d : Byte) : Instr :=
  if op = 0x00#8 then .nop
  else if op = 0x01#8 then .statRd
  else if op = 0x02#8 then .statClr d
  else if op = 0x03#8 then .reset
  else if op = 0x10#8 then .crcClr
  else if op = 0x11#8 then .crcByte d
  else if op = 0x12#8 then .crcRd
  else if op = 0x20#8 then .encBegin
  else if op = 0x21#8 then .encByte d
  else if op = 0x22#8 then .encCrcb d
  else if op = 0x23#8 then .encCrc
  else if op = 0x24#8 then .encEnd
  else if op = 0x30#8 then .decByte d
  else if op = 0x31#8 then .decPop
  else if op = 0x32#8 then .decClr
  else .reserved op

/-- The operation of a command word (R70, R74). -/
def decode (w : Word) : Instr := decodeFields (opField w) (dField w)

/-- The opcode byte of an operation (R72; for a reserved one, the opcode it carries). -/
def opcode : Instr → Byte
  | .nop => 0x00#8
  | .statRd => 0x01#8
  | .statClr _ => 0x02#8
  | .reset => 0x03#8
  | .crcClr => 0x10#8
  | .crcByte _ => 0x11#8
  | .crcRd => 0x12#8
  | .encBegin => 0x20#8
  | .encByte _ => 0x21#8
  | .encCrcb _ => 0x22#8
  | .encCrc => 0x23#8
  | .encEnd => 0x24#8
  | .decByte _ => 0x30#8
  | .decPop => 0x31#8
  | .decClr => 0x32#8
  | .reserved op => op

/-- The data byte an operation is encoded with: its operand, and 0 for operand-less operations (R75). -/
def dataByte : Instr → Byte
  | .nop => 0x00#8
  | .statRd => 0x00#8
  | .statClr d => d
  | .reset => 0x00#8
  | .crcClr => 0x00#8
  | .crcByte d => d
  | .crcRd => 0x00#8
  | .encBegin => 0x00#8
  | .encByte d => d
  | .encCrcb d => d
  | .encCrc => 0x00#8
  | .encEnd => 0x00#8
  | .decByte d => d
  | .decPop => 0x00#8
  | .decClr => 0x00#8
  | .reserved _ => 0x00#8

/-- The command word of an operation, `(op << 8) | d` (R83). -/
def encode (i : Instr) : Word := opcode i ++ dataByte i

/-- Whether the opcode takes the operand `d`: the five rows of R72 that list one. -/
def takesOperand (op : Byte) : Bool :=
  op = 0x02#8 || op = 0x11#8 || op = 0x21#8 || op = 0x22#8 || op = 0x30#8

/-- The mnemonic of an operation, as R72 and spec/opcode_table.json spell it. -/
def mnemonic : Instr → String
  | .nop => "NOP"
  | .statRd => "STAT_RD"
  | .statClr _ => "STAT_CLR"
  | .reset => "RESET"
  | .crcClr => "CRC_CLR"
  | .crcByte _ => "CRC_BYTE"
  | .crcRd => "CRC_RD"
  | .encBegin => "ENC_BEGIN"
  | .encByte _ => "ENC_BYTE"
  | .encCrcb _ => "ENC_CRCB"
  | .encCrc => "ENC_CRC"
  | .encEnd => "ENC_END"
  | .decByte _ => "DEC_BYTE"
  | .decPop => "DEC_POP"
  | .decClr => "DEC_CLR"
  | .reserved _ => "RESERVED"

/-- A row of spec/opcode_table.json: the words `w` with `w & mask = pattern`. -/
structure OpcodeRow where
  name : String
  pattern : Word
  mask : Word
deriving DecidableEq, Repr

/-- Whether a row covers a word. -/
def OpcodeRow.covers (r : OpcodeRow) (w : Word) : Bool := w &&& r.mask = r.pattern

/-- The 15 operation rows of the table. -/
def operationRows : List OpcodeRow :=
  [⟨"NOP", 0x0000, 0xFF00⟩, ⟨"STAT_RD", 0x0100, 0xFF00⟩, ⟨"STAT_CLR", 0x0200, 0xFF00⟩, ⟨"RESET", 0x0300, 0xFF00⟩,
   ⟨"CRC_CLR", 0x1000, 0xFF00⟩, ⟨"CRC_BYTE", 0x1100, 0xFF00⟩, ⟨"CRC_RD", 0x1200, 0xFF00⟩,
   ⟨"ENC_BEGIN", 0x2000, 0xFF00⟩, ⟨"ENC_BYTE", 0x2100, 0xFF00⟩, ⟨"ENC_CRCB", 0x2200, 0xFF00⟩,
   ⟨"ENC_CRC", 0x2300, 0xFF00⟩, ⟨"ENC_END", 0x2400, 0xFF00⟩,
   ⟨"DEC_BYTE", 0x3000, 0xFF00⟩, ⟨"DEC_POP", 0x3100, 0xFF00⟩, ⟨"DEC_CLR", 0x3200, 0xFF00⟩]

/-- The 13 reserved blocks of the table. -/
def reservedRows : List OpcodeRow :=
  [⟨"RESERVED", 0x0400, 0xFC00⟩, ⟨"RESERVED", 0x0800, 0xF800⟩, ⟨"RESERVED", 0x1300, 0xFF00⟩,
   ⟨"RESERVED", 0x1400, 0xFC00⟩, ⟨"RESERVED", 0x1800, 0xF800⟩, ⟨"RESERVED", 0x2500, 0xFF00⟩,
   ⟨"RESERVED", 0x2600, 0xFE00⟩, ⟨"RESERVED", 0x2800, 0xF800⟩, ⟨"RESERVED", 0x3300, 0xFF00⟩,
   ⟨"RESERVED", 0x3400, 0xFC00⟩, ⟨"RESERVED", 0x3800, 0xF800⟩, ⟨"RESERVED", 0x4000, 0xC000⟩,
   ⟨"RESERVED", 0x8000, 0x8000⟩]

/-- The whole opcode table. -/
def opcodeRows : List OpcodeRow := operationRows ++ reservedRows

/-- The host's reading of one instruction of `nbits` bits, numbered as the table numbers them. The block has one length,
16 bits (R70): a longer instruction does not exist, and bits above `nbits` are 0. -/
def decodeTableWord (nbits w : Nat) : Option Instr :=
  if nbits ≤ 16 then some (decode (BitVec.ofNat 16 (w % 2 ^ nbits))) else none

end Sys2Proof
end

