-- ==== Sys2Proof/Config.lean ====
section
/-! DEFINITION. The configuration parameters of a block instance (00_scope.md R6). They are no state of the block:
they are constant for the life of an instance, and every statement quantifies over them. The named literals of
the source (93_implementation_defined.md U1, U2) stand in Machine/Constants.lean. -/

namespace Sys2Proof

/-- The three parameters of R6, under the spec's names. A bound of `none` is unbounded (92_eei_decisions.md D11, D12). -/
structure Params where
  /-- Capacity of the receive assembly buffer, in decoded payload bytes (R6, D28). -/
  MAX_FRAME : Option Nat
  /-- Capacity of the pending-frame queue, in payloads (R6). -/
  QUEUE_DEPTH : Option Nat
  /-- Whether ENC_BEGIN emits an END byte before a frame (R6, D8). -/
  LEADING_END : Bool
deriving DecidableEq, Repr

/-- A bound is legal unless it is `some 0` (R6, U6). -/
def Params.boundLegal : Option Nat → Bool
  | none => true
  | some n => decide (1 ≤ n)

/-- A configuration is legal when both bounds are (R6). -/
def Params.legal (c : Params) : Bool :=
  Params.boundLegal c.MAX_FRAME && Params.boundLegal c.QUEUE_DEPTH

/-- The values R6 takes: the source's unbounded buffers and no leading END.
DESIGN CHOICE (unsafe): the spec leaves the two bounds OPEN; assumption log 1. -/
def Params.taken : Params := { MAX_FRAME := none, QUEUE_DEPTH := none, LEADING_END := false }

end Sys2Proof
end

