-- ==== Sys2Proof/Machine/State.lean ====
section
/-! DEFINITION. The state of the machine as plain data: the block's record (10_state.md R20), its configuration (R6),
the two output logs the host owns (R34, R82), the operation in progress (R35) and the host's moves to come (R32). -/

namespace Sys2Proof.Machine

/-- The seven message tokens (30_encoding.md R79, R80). -/
inductive Token where
  | none
  | unknown
  | confirmStart
  | confirmInfo
  | requestLine
  | confirmTest
  | indicateState
deriving DecidableEq, Repr

/-- An entry of the pending-frame queue: a payload and its `bad` bit (10_state.md R20). -/
structure Entry where
  payload : List Byte
  bad : Bool
deriving DecidableEq, Repr

/-- A response record (30_encoding.md R82). -/
inductive Response where
  | none
  | byte (v : Byte)
  | status (st : Byte) (qcount : Nat)
  | frame (present : Bool) (payload : List Byte) (bad : Bool) (tok : Token) (aux : Byte)
deriving DecidableEq, Repr

/-- A move of the host (10_state.md R32). DESIGN CHOICE (safe): the moves stand in State as a list; assumption log 2. -/
inductive HostMove where
  /-- Issue a command word and accept its transmit bytes as they come (R233 item 3). -/
  | issue (w : Word)
  /-- Issue a command word and delay draining: its transmit bytes wait to be accepted one by one (R32, R35). -/
  | start (w : Word)
  /-- Accept the next transmit byte of the operation in progress (R35). -/
  | accept
  /-- Assert the reset input (R230). -/
  | reset
deriving DecidableEq, Repr

/-- The operation in progress: its word, and how many of its transmit bytes the host has accepted (R35). -/
structure InProgress where
  word : Word
  accepted : Nat
deriving DecidableEq, Repr

/-- The machine's state. The field names of the block's record are the spec's. -/
structure State where
  /-- The configuration parameters, constant for the life of the block (00_scope.md R6, 70_reset_and_hazards.md R231). -/
  cfg : Params
  /-- CRC accumulator (R20, R27). -/
  crc : Byte
  /-- Decoded bytes of the frame being received (R20). -/
  rx_buf : List Byte
  /-- The last received byte was an ESC whose successor is due (R20). -/
  rx_esc : Bool
  /-- The frame being received overflowed and is being discarded (R20). -/
  rx_drop : Bool
  /-- The frame being received held an invalid escape (R20). -/
  rx_bad : Bool
  /-- Pending-frame queue, oldest first (R20, R29). -/
  rxq : List Entry
  /-- Sticky: an invalid escape was received (R20, R24). -/
  escerr : Bool
  /-- Sticky: a frame was discarded for exceeding MAX_FRAME (R20, R24). -/
  frmovf : Bool
  /-- Sticky: a payload was discarded because the queue was full (R20, R24). -/
  qovf : Bool
  /-- Sticky: a reserved opcode was issued (R20, R24). -/
  illop : Bool
  /-- The transmit stream of the completed operations (R34). -/
  tx : List Byte
  /-- The response port's log, one record per completed operation (R82, R31). -/
  rsp : List Response
  /-- The operation in progress, if the host still owes it acceptances (R35). -/
  busy : Option InProgress
  /-- The host's moves to come, next first (R32). -/
  port : List HostMove
deriving DecidableEq, Repr

/-- Why the machine stops with a fault: never. The block raises no exception and takes no trap (60_exceptions.md R210),
so the type has no constructor. Safe: no claim can lean on a fault. -/
inductive Fault where
deriving DecidableEq, Repr

/-- Why the machine answers no next state. -/
inductive Refusal where
  /-- Raised by `exec` for an instruction that has no meaning yet (none is left). Safe: the machine stops. -/
  | notModelled (mnemonic : String)
  /-- Raised by `step` alone, when a bound of the configuration is `some 0`: such a configuration is refused (R6,
  93_implementation_defined.md U6). Safe: the machine stops. -/
  | illegalConfiguration
deriving DecidableEq, Repr

/-- The state after reset of a block configured with `c`: every field at its reset value of R20 and R230. The logs, the
host's moves and the operation in progress, which the spec does not count as state of the block, are empty (DESIGN CHOICE,
unsafe; assumption logs 2, 3 and 4). -/
def State.resetWith (c : Params) : State where
  cfg := c
  crc := 0x00#8
  rx_buf := []
  rx_esc := false
  rx_drop := false
  rx_bad := false
  rxq := []
  escerr := false
  frmovf := false
  qovf := false
  illop := false
  tx := []
  rsp := []
  busy := none
  port := []

/-- The machine right after reset, with the parameter values R6 takes (assumption log 1). -/
def State.reset : State := State.resetWith Params.taken

end Sys2Proof.Machine
end

