-- ==== Sys2Proof/Machine/Constants.lean ====
section
/-! DEFINITION. The literals of the source and of RFC 1055, each named once (93_implementation_defined.md U1, U2;
91_not_in_source.md N1, N2). The spec takes them as normative although they are unaudited; assumption log 7. -/

namespace Sys2Proof.Machine

/-- END, frame terminator (30_encoding.md R76; PRESUMED by the spec from RFC 1055, assumption log 7). -/
def SLIP_END : Byte := 0xC0#8

/-- ESC, escape introducer (R76). -/
def SLIP_ESC : Byte := 0xDB#8

/-- ESC_END: after ESC, stands for the payload byte END (R76). -/
def SLIP_ESC_END : Byte := 0xDC#8

/-- ESC_ESC: after ESC, stands for the payload byte ESC (R76). -/
def SLIP_ESC_ESC : Byte := 0xDD#8

/-- Feedback constant of the CRC fold (00_scope.md R7, 41_crc.md R120). -/
def CRC_FEEDBACK : Byte := 0x8C#8

/-- Initial value of the CRC accumulator (R7, R121). -/
def CRC_INIT : Byte := 0x00#8

/-- Outbound command codes (30_encoding.md R78). -/
def CMD_START : Byte := 0x01#8
@[inherit_doc CMD_START] def CMD_INFO : Byte := 0x03#8
@[inherit_doc CMD_START] def CMD_TEST : Byte := 0x04#8
@[inherit_doc CMD_START] def CMD_LINE : Byte := 0x42#8

/-- Inbound token codes (R79). -/
def CODE_CONFIRM_START : Byte := 0xC1#8
@[inherit_doc CODE_CONFIRM_START] def CODE_CONFIRM_INFO : Byte := 0xC3#8
@[inherit_doc CODE_CONFIRM_START] def CODE_REQUEST_LINE : Byte := 0x82#8
@[inherit_doc CODE_CONFIRM_START] def CODE_CONFIRM_TEST : Byte := 0xC4#8
@[inherit_doc CODE_CONFIRM_START] def CODE_INDICATE_STATE : Byte := 0x84#8

/-- Bit numbers of the STATUS byte (10_state.md R25); those of the sticky bits are the error codes of 60_exceptions.md
R211 and the mask bits of 40_control.md R102. -/
def RXNE_BIT : Nat := 0
@[inherit_doc RXNE_BIT] def RXPART_BIT : Nat := 1
@[inherit_doc RXNE_BIT] def ESCP_BIT : Nat := 2
@[inherit_doc RXNE_BIT] def ESCERR_BIT : Nat := 3
@[inherit_doc RXNE_BIT] def FRMOVF_BIT : Nat := 4
@[inherit_doc RXNE_BIT] def QOVF_BIT : Nat := 5
@[inherit_doc RXNE_BIT] def ILLOP_BIT : Nat := 6

/-- The 3-bit token output of R80. -/
def Token.tok : Token → BitVec 3
  | .none => 0
  | .unknown => 1
  | .confirmStart => 2
  | .confirmInfo => 3
  | .requestLine => 4
  | .confirmTest => 5
  | .indicateState => 6

/-- The source's code of a token (R79, R80): a leading byte, or a negative sentinel that never appears on the wire. -/
def Token.sourceCode : Token → Int
  | .none => -1
  | .unknown => -2
  | .confirmStart => CODE_CONFIRM_START.toNat
  | .confirmInfo => CODE_CONFIRM_INFO.toNat
  | .requestLine => CODE_REQUEST_LINE.toNat
  | .confirmTest => CODE_CONFIRM_TEST.toNat
  | .indicateState => CODE_INDICATE_STATE.toNat

end Sys2Proof.Machine
end

