-- ==== Sys2Proof/Machine/Operands.lean ====
section
/-! DEFINITION. The forms an operand byte is used in: as a clear mask (40_control.md R102) and as a payload byte in its
wire form (42_slip_encoder.md R140, R141). The operand itself is `d`, used as is (30_encoding.md R71). -/

namespace Sys2Proof.Machine

/-- `d[k]`, bit `k` of an operand byte (00_scope.md R10). -/
def bitOf (d : Byte) (k : Nat) : Bool := d.getLsbD k

/-- `slip_esc(b)`: the wire form of one payload byte (R140, 30_encoding.md R77). -/
def slipEsc (b : Byte) : List Byte :=
  if b = SLIP_END then [SLIP_ESC, SLIP_ESC_END]
  else if b = SLIP_ESC then [SLIP_ESC, SLIP_ESC_ESC]
  else [b]

/-- `concat(map slip_esc p)` (R141). -/
def slipEscAll (p : List Byte) : List Byte := p.flatMap slipEsc

/-- What opens a frame under the parameter LEADING_END (R142). -/
def frameLead (leadingEnd : Bool) : List Byte := if leadingEnd then [SLIP_END] else []

/-- `encode(p)`: the frame of a payload (R141). -/
def encodeFrame (leadingEnd : Bool) (p : List Byte) : List Byte :=
  frameLead leadingEnd ++ slipEscAll p ++ [SLIP_END]

end Sys2Proof.Machine
end

