-- ==== Sys2Proof/Machine/Flags.lean ====
section
/-! DEFINITION. The STATUS byte (10_state.md R25) and the clearing of its sticky bits (R24, 40_control.md R102). The
block has no condition codes and no arithmetic flags (R24). -/

namespace Sys2Proof.Machine

/-- RXNE: a payload is pending (R25). -/
def State.rxne (s : State) : Bool := decide (s.rxq ≠ [])

/-- RXPART: a frame has started and its END has not yet come (R25). -/
def State.rxpart (s : State) : Bool := decide (s.rx_buf ≠ []) || s.rx_esc || s.rx_drop

/-- ESCP: an ESC's successor is due (R25). -/
def State.escp (s : State) : Bool := s.rx_esc

/-- A status bit at its place in the byte, `zext_8(b) << k` (R25). -/
def statusBit (b : Bool) (k : Nat) : Byte := (BitVec.ofBool b).setWidth 8 <<< k

/-- `status(s)`: the STATUS byte; bit 7 is reserved and reads 0 (R25). -/
def State.statusByte (s : State) : Byte :=
  statusBit s.rxne RXNE_BIT ||| statusBit s.rxpart RXPART_BIT ||| statusBit s.escp ESCP_BIT |||
  statusBit s.escerr ESCERR_BIT ||| statusBit s.frmovf FRMOVF_BIT ||| statusBit s.qovf QOVF_BIT |||
  statusBit s.illop ILLOP_BIT

/-- Write-1-to-clear of one sticky bit (R102): cleared where the mask has a 1, else unchanged. -/
def stickyAfter (mask : Byte) (k : Nat) (old : Bool) : Bool := if bitOf mask k then false else old

/-- STAT_CLR's effect on the four sticky bits; mask bits 0, 1, 2 and 7 are ignored (R102). -/
def State.clearSticky (d : Byte) (s : State) : State :=
  { s with
    escerr := stickyAfter d ESCERR_BIT s.escerr
    frmovf := stickyAfter d FRMOVF_BIT s.frmovf
    qovf := stickyAfter d QOVF_BIT s.qovf
    illop := stickyAfter d ILLOP_BIT s.illop }

/-- The decoder saw an invalid escape: the sticky ESCERR and the frame's `bad` mark (43_slip_decoder.md R161). -/
def State.noteBadEscape (s : State) : State := { s with escerr := true, rx_bad := true }

/-- A reserved opcode was issued: the sticky ILLOP (40_control.md R104). -/
def State.noteIllegal (s : State) : State := { s with illop := true }

end Sys2Proof.Machine
end

