-- ==== Sys2Proof/Machine/Ops.lean ====
section
/-! DEFINITION. The shared operations over the block's state: the primitives `emit` and `respond` (00_scope.md R12), the
CRC fold (41_crc.md), the decoder's steps (43_slip_decoder.md), the classifier (44_messages.md) and the clearing of
state by DEC_CLR, RESET and the reset input (70_reset_and_hazards.md). The block takes no exception (60_exceptions.md
R210, R215): there is no trap entry or return to write. -/

namespace Sys2Proof.Machine

/-! ### Outputs -/

/-- `emit` of each byte in order: the transmit stream is append-only (10_state.md R34). -/
def State.emitAll (bs : List Byte) (s : State) : State := { s with tx := s.tx ++ bs }

/-- `respond(r)`: the one response record of an operation (R12, 30_encoding.md R82). -/
def State.respond (r : Response) (s : State) : State := { s with rsp := s.rsp ++ [r] }

/-! ### The CRC unit -/

/-- One round of the fold: `bit <- (acc ^ b) & 1; acc <- acc >> 1; if bit = 1 then acc <- acc ^ 0x8C` (R120). -/
def crcRound (acc b : Byte) : Byte :=
  if (acc ^^^ b) &&& 1#8 = 1#8 then (acc >>> 1) ^^^ CRC_FEEDBACK else acc >>> 1

/-- `n` rounds, `b <- b >> 1` after each (R120). -/
def crcRounds : Nat → Byte → Byte → Byte
  | 0, acc, _ => acc
  | n + 1, acc, b => crcRounds n (crcRound acc b) (b >>> 1)

/-- `crc_step(acc, b)`: eight rounds, least significant bit first, masked to 8 bits (R120, 20_memory.md R54). -/
def crcStep (acc b : Byte) : Byte := crcRounds 8 acc b &&& 0xFF#8

/-- `compute(data)`: the checksum of a byte sequence (R121). -/
def compute (data : List Byte) : Byte := data.foldl crcStep CRC_INIT

/-- Writing the CRC accumulator. -/
def State.setCrc (v : Byte) (s : State) : State := { s with crc := v }

/-! ### The decoder -/

/-- The frame being received ends or is discarded: the carry-over state returns to "between frames" (R163, R166). -/
def State.clearCarryOver (s : State) : State :=
  { s with rx_buf := [], rx_esc := false, rx_drop := false, rx_bad := false }

/-- `rx_store(s, v)`: append one decoded byte, or discard the frame at its byte MAX_FRAME + 1 (R162). -/
def State.rxStore (v : Byte) (s : State) : State :=
  if s.rx_drop then s
  else if s.cfg.MAX_FRAME = some s.rx_buf.length then { s with rx_buf := [], rx_drop := true, frmovf := true }
  else { s with rx_buf := s.rx_buf ++ [v] }

/-- What END does to the queue: nothing for an overflowed or empty frame, reject-new when the queue is full, else the
frame joins the tail (R163). -/
def State.queueFrame (s : State) : State :=
  if s.rx_drop then s
  else if s.rx_buf = [] then s
  else if s.cfg.QUEUE_DEPTH = some s.rxq.length then { s with qovf := true }
  else { s with rxq := s.rxq ++ [⟨s.rx_buf, s.rx_bad⟩] }

/-- `finish_frame(s)` (R163). -/
def State.finishFrame (s : State) : State := s.queueFrame.clearCarryOver

/-- A byte that follows an ESC, with `rx_esc` already cleared (R161, first half). -/
def State.decEscaped (b : Byte) (s : State) : State :=
  if b = SLIP_END then s.noteBadEscape.finishFrame
  else if b = SLIP_ESC_END then s.rxStore SLIP_END
  else if b = SLIP_ESC_ESC then s.rxStore SLIP_ESC
  else s.noteBadEscape.rxStore b

/-- A byte outside an escape pair (R161, second half). -/
def State.decPlain (b : Byte) (s : State) : State :=
  if b = SLIP_END then s.finishFrame
  else if b = SLIP_ESC then { s with rx_esc := true }
  else s.rxStore b

/-- `dec_step(s, b)` (R161). -/
def State.decStep (b : Byte) (s : State) : State :=
  if s.rx_esc then { s with rx_esc := false }.decEscaped b else s.decPlain b

/-- DEC_CLR's effect: the carry-over state and the queue are emptied, nothing else (R166). -/
def State.clearReceive (s : State) : State := { s.clearCarryOver with rxq := [] }

/-! ### The classifier -/

/-- The token of a leading byte (R190, 30_encoding.md R79). -/
def tokenOf (b : Byte) : Token :=
  if b = CODE_CONFIRM_START then .confirmStart
  else if b = CODE_CONFIRM_INFO then .confirmInfo
  else if b = CODE_REQUEST_LINE then .requestLine
  else if b = CODE_CONFIRM_TEST then .confirmTest
  else if b = CODE_INDICATE_STATE then .indicateState
  else .unknown

/-- `classify(p)`: token and auxiliary byte of a payload (R190); for `unknown` the auxiliary byte is 0. -/
def classify : List Byte → Token × Byte
  | [] => (.none, 0x00#8)
  | b :: rest => if tokenOf b = .unknown then (.unknown, 0x00#8) else (tokenOf b, rest.headD 0x00#8)

/-- DEC_POP's response to the head of the queue, or the absent record (R165, R82). -/
def popResponse : List Entry → Response
  | [] => .frame false [] false .none 0x00#8
  | e :: _ => .frame true e.payload e.bad (classify e.payload).1 (classify e.payload).2

/-! ### Reset -/

/-- Every field of the block's record to its reset value; the parameters and the transmit stream are kept (R103, R230,
R231). -/
def State.clearBlock (s : State) : State :=
  { s with
    crc := 0x00#8
    rx_buf := [], rx_esc := false, rx_drop := false, rx_bad := false
    rxq := []
    escerr := false, frmovf := false, qovf := false, illop := false }

end Sys2Proof.Machine
end

