-- ==== Sys2Proof/Machine/Control.lean ====
section
/-! DEFINITION. The control operations and the reserved opcodes (40_control.md R100 to R104). An operation that calls no
`respond` returns the response `none` (00_scope.md R12). -/

namespace Sys2Proof.Machine

/-- NOP (R100). -/
def execNop (s : State) : Host.Outcome State Fault Refusal := .next (s.respond .none)

/-- STAT_RD: the STATUS byte and the queue count, a natural number (R101, R82; assumption log 8). -/
def execStatRd (s : State) : Host.Outcome State Fault Refusal :=
  .next (s.respond (.status s.statusByte s.rxq.length))

/-- STAT_CLR (R102). -/
def execStatClr (d : Byte) (s : State) : Host.Outcome State Fault Refusal :=
  .next ((s.clearSticky d).respond .none)

/-- RESET (R103). -/
def execReset (s : State) : Host.Outcome State Fault Refusal := .next (s.clearBlock.respond .none)

/-- A reserved opcode, whichever it is (R104). -/
def execReserved (s : State) : Host.Outcome State Fault Refusal := .next (s.noteIllegal.respond .none)

end Sys2Proof.Machine
end

