-- ==== Sys2Proof/Machine/Crc.lean ====
section
/-! DEFINITION. The operations of the CRC unit (41_crc.md R122 to R124). -/

namespace Sys2Proof.Machine

/-- CRC_CLR (R122). -/
def execCrcClr (s : State) : Host.Outcome State Fault Refusal := .next ((s.setCrc CRC_INIT).respond .none)

/-- CRC_BYTE (R123). -/
def execCrcByte (d : Byte) (s : State) : Host.Outcome State Fault Refusal :=
  .next ((s.setCrc (crcStep s.crc d)).respond .none)

/-- CRC_RD (R124). -/
def execCrcRd (s : State) : Host.Outcome State Fault Refusal := .next (s.respond (.byte s.crc))

end Sys2Proof.Machine
end

