-- ==== Sys2Proof/Machine/Decoder.lean ====
section
/-! DEFINITION. The operations of the SLIP decoder and its queue (43_slip_decoder.md R160, R165, R166). -/

namespace Sys2Proof.Machine

/-- DEC_BYTE (R160). -/
def execDecByte (d : Byte) (s : State) : Host.Outcome State Fault Refusal :=
  .next ((s.decStep d).respond .none)

/-- DEC_POP: the oldest payload leaves the queue, classified (R165). -/
def execDecPop (s : State) : Host.Outcome State Fault Refusal :=
  .next ({ s with rxq := s.rxq.tail }.respond (popResponse s.rxq))

/-- DEC_CLR (R166). -/
def execDecClr (s : State) : Host.Outcome State Fault Refusal := .next (s.clearReceive.respond .none)

end Sys2Proof.Machine
end

