-- ==== Sys2Proof/Machine/Encoder.lean ====
section
/-! DEFINITION. The operations of the SLIP encoder (42_slip_encoder.md R142 to R146). It holds no state of its own. -/

namespace Sys2Proof.Machine

/-- ENC_BEGIN (R142). -/
def execEncBegin (s : State) : Host.Outcome State Fault Refusal :=
  .next ((s.emitAll (frameLead s.cfg.LEADING_END)).respond .none)

/-- ENC_BYTE (R143). -/
def execEncByte (d : Byte) (s : State) : Host.Outcome State Fault Refusal :=
  .next ((s.emitAll (slipEsc d)).respond .none)

/-- ENC_CRCB: the CRC folds the unescaped byte, then its wire form goes out (R144). -/
def execEncCrcb (d : Byte) (s : State) : Host.Outcome State Fault Refusal :=
  .next (((s.setCrc (crcStep s.crc d)).emitAll (slipEsc d)).respond .none)

/-- ENC_CRC: the accumulator goes out as a payload byte (R145). -/
def execEncCrc (s : State) : Host.Outcome State Fault Refusal :=
  .next ((s.emitAll (slipEsc s.crc)).respond .none)

/-- ENC_END (R146). -/
def execEncEnd (s : State) : Host.Outcome State Fault Refusal :=
  .next ((s.emitAll [SLIP_END]).respond .none)

end Sys2Proof.Machine
end

