-- ==== Sys2Proof/Machine/Dispatch.lean ====
section
/-! DEFINITION. One arm per operation of spec/opcode_table.json. -/

namespace Sys2Proof.Machine

def exec (i : Instr) (s : State) : Host.Outcome State Fault Refusal :=
  match i with
  | .nop => Sys2Proof.Machine.execNop s
  | .statRd => Sys2Proof.Machine.execStatRd s
  | .statClr d => Sys2Proof.Machine.execStatClr d s
  | .reset => Sys2Proof.Machine.execReset s
  | .crcClr => Sys2Proof.Machine.execCrcClr s
  | .crcByte d => Sys2Proof.Machine.execCrcByte d s
  | .crcRd => Sys2Proof.Machine.execCrcRd s
  | .encBegin => Sys2Proof.Machine.execEncBegin s
  | .encByte d => Sys2Proof.Machine.execEncByte d s
  | .encCrcb d => Sys2Proof.Machine.execEncCrcb d s
  | .encCrc => Sys2Proof.Machine.execEncCrc s
  | .encEnd => Sys2Proof.Machine.execEncEnd s
  | .decByte d => Sys2Proof.Machine.execDecByte d s
  | .decPop => Sys2Proof.Machine.execDecPop s
  | .decClr => Sys2Proof.Machine.execDecClr s
  | .reserved _ => Sys2Proof.Machine.execReserved s

end Sys2Proof.Machine
end

