-- ==== Sys2Proof/Machine/HostPort.lean ====
section
/-! DEFINITION. What the host's moves do (10_state.md R32): issuing a word, delaying and accepting transmit bytes (R35),
and asserting the reset input (70_reset_and_hazards.md R230). -/

namespace Sys2Proof.Machine

/-- The bytes an operation emits from a state (20_memory.md R57); `exec` appends exactly these to `tx`. -/
def txBytes (i : Instr) (s : State) : List Byte :=
  match i with
  | .nop => []
  | .statRd => []
  | .statClr _ => []
  | .reset => []
  | .crcClr => []
  | .crcByte _ => []
  | .crcRd => []
  | .encBegin => frameLead s.cfg.LEADING_END
  | .encByte d => slipEsc d
  | .encCrcb d => slipEsc d
  | .encCrc => slipEsc s.crc
  | .encEnd => [SLIP_END]
  | .decByte _ => []
  | .decPop => []
  | .decClr => []
  | .reserved _ => []

/-- The bytes of an operation in progress that the host has accepted already (R35). -/
def acceptedOf (op : InProgress) (s : State) : List Byte := (txBytes (decode op.word) s).take op.accepted

/-- The bytes of the operation in progress, if any, that are on the transmit stream already. -/
def State.acceptedBytes (s : State) : List Byte :=
  match s.busy with
  | none => []
  | some op => acceptedOf op s

/-- The transmit stream as the host has seen it: the bytes of the completed operations, then those accepted from the
operation in progress (R34, R35). -/
def State.stream (s : State) : List Byte := s.tx ++ s.acceptedBytes

/-- The reset input (R230, R231): every field of the block at its reset value; an operation in progress is abandoned
and the bytes the host has accepted from it stay on the stream, whatever prefix they are. No response is returned for
it (DEDUCED, unsafe for a count of responses; assumption log 5). -/
def hardwareReset (s : State) : State := { s.clearBlock with tx := s.stream, busy := none }

/-- Whether the operation in progress still waits for the host to accept a byte (R35). -/
def waiting (op : InProgress) (s : State) : Bool := decide (op.accepted < (txBytes (decode op.word) s).length)

/-- The host's next move when no operation is in progress. With no move left the block holds its state (60_exceptions.md
R222); an `accept` finds no byte to accept. -/
def stepIdle (s : State) : Host.Outcome State Fault Refusal :=
  match s.port with
  | [] => .next s
  | .issue w :: rest => exec (decode w) { s with port := rest }
  | .start w :: rest => .next { s with port := rest, busy := some ⟨w, 0⟩ }
  | .accept :: rest => .next { s with port := rest }
  | .reset :: rest => .next (hardwareReset { s with port := rest })

/-- The host's next move while an operation is in progress. The reset input wins; the operation completes once every
byte is accepted, with its whole effect (R12, R33); until then the block accepts no further operation (R35).
DESIGN CHOICE (unsafe): a word offered while the operation still waits for an acceptance stays at the head of `port`, and no
move behind it is served, not even an acceptance or a reset; R32 forbids such a host, and assumption log 11 says more. -/
def stepBusy (op : InProgress) (s : State) : Host.Outcome State Fault Refusal :=
  match s.port with
  | .reset :: rest => .next (hardwareReset { s with port := rest })
  | .accept :: rest =>
    if waiting op s then .next { s with port := rest, busy := some { op with accepted := op.accepted + 1 } }
    else exec (decode op.word) { s with busy := none }
  | _ => if waiting op s then .next s else exec (decode op.word) { s with busy := none }

/-- The next move of the host. -/
def stepHost (s : State) : Host.Outcome State Fault Refusal :=
  match s.busy with
  | none => stepIdle s
  | some op => stepBusy op s

/-- The host issues `w` next, with nothing in progress and every transmit byte accepted as it comes. -/
def State.issueNext (w : Word) (s : State) : State := { s with busy := none, port := .issue w :: s.port }

end Sys2Proof.Machine
end

