-- ==== Sys2Proof/Machine/Step.lean ====
section
/-! DEFINITION. One step of the machine. The block fetches no instruction (10_state.md R22): a step takes the host's next
move. An illegal configuration is refused (00_scope.md R6). -/

namespace Sys2Proof.Machine

/-- One step. -/
def step (s : State) : Host.Outcome State Fault Refusal :=
  if s.cfg.legal then stepHost s else .refused .illegalConfiguration

/-- `s` with the instruction of `nbits` bits `w` as the host's next move, so that the very next step runs it
(assumption log 6). The block's words have 16 bits (R70), and bits above `nbits` are 0. -/
def State.withFetchWord (s : State) (nbits w : Nat) : State :=
  s.issueNext (BitVec.ofNat 16 (w % 2 ^ nbits))

end Sys2Proof.Machine
end

