-- ==== Sys2Proof/Machine/Assembler.lean ====
section
/-! DEFINITION. The assembler syntax of 30_encoding.md R83: one statement a line, a mnemonic of R72 and at most one byte
operand, `;` starts a comment. A line is a list of characters. Spaces and tabs separate; `0x` is followed by exactly two
hexadecimal digits in either letter case; mnemonics are as R72 spells them (DESIGN CHOICE, safe: R83 does not say;
assumption log 9). A pseudo-instruction of R84 is no statement here; Machine/Messages.lean expands it to operations (DESIGN
CHOICE, safe: the spec does not say whether a line may hold one; assumption log 9). -/

namespace Sys2Proof.Machine

/-- Why a line does not assemble (R83). -/
inductive AsmError where
  /-- The first word of the statement is no mnemonic of R72. A pseudo-instruction's name (R84) is none (DESIGN CHOICE;
  assumption log 9). -/
  | unknownMnemonic
  /-- An operation with `d` stands without its operand. -/
  | operandMissing
  /-- An operand-less operation stands with an operand, or more than one operand stands. -/
  | operandExtra
  /-- The operand is no byte in one of R83's two forms. -/
  | operandMalformed
deriving DecidableEq, Repr

/-- What a line assembles to: nothing (an empty or comment line), one word, or an error (R83). -/
inductive AsmResult where
  | empty
  | word (w : Word)
  | error (e : AsmError)
deriving DecidableEq, Repr

/-- The part of a line before its comment (R83). -/
def stripComment (line : List Char) : List Char := line.takeWhile (· ≠ ';')

/-- A separator (assumption log 9). -/
def isBlank (c : Char) : Bool := c = ' ' || c = '\t'

/-- Adds a character at the front of a line that is cut into words already; an empty word marks a separator. -/
def pushChar (c : Char) : List (List Char) → List (List Char)
  | [] => if isBlank c then [] else [[c]]
  | w :: ws => if isBlank c then [] :: w :: ws else (c :: w) :: ws

/-- The words of a line (assumption log 9). -/
def wordsOf (line : List Char) : List (List Char) := (line.foldr pushChar []).filter (· ≠ [])

/-- Consecutive characters that stand for consecutive values: from `first`, `size` of them, the first worth `worth`. -/
structure DigitRun where
  first : Char
  size : Nat
  worth : Nat
deriving DecidableEq, Repr

/-- The value a run gives a character, if the character is in it. -/
def DigitRun.value (r : DigitRun) (c : Char) : Option Nat :=
  if r.first.toNat ≤ c.toNat ∧ c.toNat < r.first.toNat + r.size then some (r.worth + (c.toNat - r.first.toNat))
  else none

/-- The characters of a decimal operand (R83). -/
def decimalRun : DigitRun := ⟨'0', 10, 0⟩

/-- The characters of a hexadecimal operand, its letters in either case (R83; assumption log 9). -/
def hexRuns : List DigitRun := [decimalRun, ⟨'A', 6, 10⟩, ⟨'a', 6, 10⟩]

/-- The value of a decimal digit. -/
def decDigit (c : Char) : Option Nat := decimalRun.value c

/-- The value of a hexadecimal digit. -/
def hexDigit (c : Char) : Option Nat := hexRuns.findSome? (·.value c)

/-- The value of a string of decimal digits, read from `acc`. -/
def decValue : Nat → List Char → Option Nat
  | acc, [] => some acc
  | acc, c :: cs =>
    match decDigit c with
    | some v => decValue (acc * 10 + v) cs
    | none => none

/-- A decimal operand: at least one digit, a value from 0 to 255 (R83). -/
def parseDecimal (cs : List Char) : Option Byte :=
  match cs with
  | [] => none
  | _ :: _ =>
    match decValue 0 cs with
    | some v => if v ≤ 255 then some (BitVec.ofNat 8 v) else none
    | none => none

/-- An operand, `0xNN` or a decimal number (R83). -/
def parseOperand (cs : List Char) : Option Byte :=
  match cs with
  | ['0', 'x', a, b] =>
    match hexDigit a, hexDigit b with
    | some h, some l => some (BitVec.ofNat 8 (16 * h + l))
    | _, _ => none
  | _ => parseDecimal cs

/-- The mnemonics of R72 with their opcodes. -/
def mnemonicTable : List (List Char × Byte) :=
  [(['N', 'O', 'P'], 0x00#8),
   (['S', 'T', 'A', 'T', '_', 'R', 'D'], 0x01#8),
   (['S', 'T', 'A', 'T', '_', 'C', 'L', 'R'], 0x02#8),
   (['R', 'E', 'S', 'E', 'T'], 0x03#8),
   (['C', 'R', 'C', '_', 'C', 'L', 'R'], 0x10#8),
   (['C', 'R', 'C', '_', 'B', 'Y', 'T', 'E'], 0x11#8),
   (['C', 'R', 'C', '_', 'R', 'D'], 0x12#8),
   (['E', 'N', 'C', '_', 'B', 'E', 'G', 'I', 'N'], 0x20#8),
   (['E', 'N', 'C', '_', 'B', 'Y', 'T', 'E'], 0x21#8),
   (['E', 'N', 'C', '_', 'C', 'R', 'C', 'B'], 0x22#8),
   (['E', 'N', 'C', '_', 'C', 'R', 'C'], 0x23#8),
   (['E', 'N', 'C', '_', 'E', 'N', 'D'], 0x24#8),
   (['D', 'E', 'C', '_', 'B', 'Y', 'T', 'E'], 0x30#8),
   (['D', 'E', 'C', '_', 'P', 'O', 'P'], 0x31#8),
   (['D', 'E', 'C', '_', 'C', 'L', 'R'], 0x32#8)]

/-- The opcode of a mnemonic. -/
def lookupMnemonic (m : List Char) : Option Byte := (mnemonicTable.find? (·.1 = m)).map (·.2)

/-- Assembles a statement: a mnemonic's opcode and the words that follow it (R83). -/
def assembleStatement (op : Byte) (operands : List (List Char)) : AsmResult :=
  match takesOperand op, operands with
  | false, [] => .word (op ++ 0x00#8)
  | false, _ :: _ => .error .operandExtra
  | true, [] => .error .operandMissing
  | true, [o] =>
    match parseOperand o with
    | some d => .word (op ++ d)
    | none => .error .operandMalformed
  | true, _ :: _ :: _ => .error .operandExtra

/-- Assembles one line (R83). A line that holds a pseudo-instruction of R84 is an error, `unknownMnemonic` (DESIGN CHOICE,
safe; assumption log 9). -/
def assembleLine (line : List Char) : AsmResult :=
  match wordsOf (stripComment line) with
  | [] => .empty
  | m :: operands =>
    match lookupMnemonic m with
    | some op => assembleStatement op operands
    | none => .error .unknownMnemonic

/-- Adds what a line assembles to in front of the words of the lines after it. -/
def prependLine (first : AsmResult) (rest : Except AsmError (List Word)) : Except AsmError (List Word) :=
  match first with
  | .empty => rest
  | .word w => rest.map (w :: ·)
  | .error e => .error e

/-- Assembles a program, line by line; the first line in error is the program's error (R83). -/
def assemble : List (List Char) → Except AsmError (List Word)
  | [] => .ok []
  | line :: lines => prependLine (assembleLine line) (assemble lines)

/-- The character a run gives a value, if the value is in it. -/
def DigitRun.char (r : DigitRun) (v : Nat) : Option Char :=
  if r.worth ≤ v ∧ v < r.worth + r.size then some (Char.ofNat (r.first.toNat + (v - r.worth))) else none

/-- The hexadecimal digit of a number below 16, a capital where it is a letter. -/
def hexChar (v : Nat) : Char := (hexRuns.findSome? (·.char v)).getD decimalRun.first

/-- A byte as R83 writes it, `0xNN`. -/
def printByte (d : Byte) : List Char := ['0', 'x', hexChar (d.toNat / 16), hexChar (d.toNat % 16)]

/-- The statement of an operation, as R83 writes it; a reserved opcode has no mnemonic and so no statement. -/
def printInstr (i : Instr) : Option (List Char) :=
  ((mnemonicTable.find? (·.2 = opcode i)).map (·.1)).map fun m =>
    if takesOperand (opcode i) then m ++ [' '] ++ printByte (dataByte i) else m

end Sys2Proof.Machine
end

