-- ==== Sys2Proof/Machine/Messages.lean ====
section
/-! DEFINITION. The outbound command payloads (44_messages.md R192 to R195) and the pseudo-instructions that build them
from the block's operations (30_encoding.md R84). They are terms here and no lines of the assembler (DESIGN CHOICE,
assumption log 9). The block itself interprets no outbound payload (R78). -/

namespace Sys2Proof.Machine

/-- START payload; the needles are not range-checked (R192). -/
def startPayload (startNeedle stopNeedle : Byte) (continuousReporting : Bool) : List Byte :=
  [CMD_START, startNeedle, stopNeedle, if continuousReporting then 0x01#8 else 0x00#8]

/-- INFO request payload (R193). -/
def infoPayload : List Byte := [CMD_INFO]

/-- TEST request payload (R194). -/
def testPayload : List Byte := [CMD_TEST]

/-- The checksummed part of a LINE payload (R195). -/
def lineBody (lineNumber : Byte) (lineData : List Byte) (flags : Byte) : List Byte :=
  [CMD_LINE, lineNumber] ++ lineData ++ [flags]

/-- LINE payload: the body, then its checksum; the length of the data is not checked (R195, R197). -/
def linePayload (lineNumber : Byte) (lineData : List Byte) (flags : Byte) : List Byte :=
  lineBody lineNumber lineData flags ++ [compute (lineBody lineNumber lineData flags)]

/-- The pseudo-instructions of R84. -/
inductive Pseudo where
  | crcBytes (bs : List Byte)
  | crcCompute (bs : List Byte)
  | encBytes (bs : List Byte)
  | encFrame (bs : List Byte)
  | decBytes (bs : List Byte)
  | sendStart (startNeedle stopNeedle : Byte) (continuousReporting : Bool)
  | sendInfo
  | sendTest
  | sendLine (lineNumber : Byte) (lineData : List Byte) (flags : Byte)
deriving DecidableEq, Repr

/-- `ENC_FRAME b0, ..., bk` (R84). -/
def encFrameInstrs (bs : List Byte) : List Instr := .encBegin :: bs.map .encByte ++ [.encEnd]

/-- The expansion of a pseudo-instruction (R84). -/
def Pseudo.expand : Pseudo → List Instr
  | .crcBytes bs => bs.map .crcByte
  | .crcCompute bs => .crcClr :: bs.map .crcByte ++ [.crcRd]
  | .encBytes bs => bs.map .encByte
  | .encFrame bs => encFrameInstrs bs
  | .decBytes bs => bs.map .decByte
  | .sendStart sn en c => encFrameInstrs [CMD_START, sn, en, if c then 0x01#8 else 0x00#8]
  | .sendInfo => encFrameInstrs [CMD_INFO]
  | .sendTest => encFrameInstrs [CMD_TEST]
  | .sendLine ln ds f =>
    [.crcClr, .encBegin, .encCrcb CMD_LINE, .encCrcb ln] ++ ds.map .encCrcb ++ [.encCrcb f, .encCrc, .encEnd]

end Sys2Proof.Machine
end

