-- ==== Sys2Proof/Machine/Run.lean ====
section
/-! DEFINITION. Sequences of operations, as the rules about frames, chunks and pseudo-instructions speak of them
(30_encoding.md R84, 42_slip_encoder.md R147, 43_slip_decoder.md R167). -/

namespace Sys2Proof.Machine

/-- The operations of a list one after the other, stopping at the first that answers no next state. -/
def runInstrs : List Instr → State → Host.Outcome State Fault Refusal
  | [], s => .next s
  | i :: is, s =>
    match exec i s with
    | .next t => runInstrs is t
    | .fault r => .fault r
    | .refused r => .refused r

/-- The byte an operation folds into the CRC, if it folds one (R125). -/
def foldedByte : Instr → Option Byte
  | .nop => none
  | .statRd => none
  | .statClr _ => none
  | .reset => none
  | .crcClr => none
  | .crcByte d => some d
  | .crcRd => none
  | .encBegin => none
  | .encByte _ => none
  | .encCrcb d => some d
  | .encCrc => none
  | .encEnd => none
  | .decByte _ => none
  | .decPop => none
  | .decClr => none
  | .reserved _ => none

/-- The payload byte an operation escapes onto the stream, if its operand is one (R147). -/
def payloadByte : Instr → Option Byte
  | .nop => none
  | .statRd => none
  | .statClr _ => none
  | .reset => none
  | .crcClr => none
  | .crcByte _ => none
  | .crcRd => none
  | .encBegin => none
  | .encByte d => some d
  | .encCrcb d => some d
  | .encCrc => none
  | .encEnd => none
  | .decByte _ => none
  | .decPop => none
  | .decClr => none
  | .reserved _ => none

/-- The received byte an operation feeds to the decoder, if it feeds one (R169). -/
def receivedByte : Instr → Option Byte
  | .nop => none
  | .statRd => none
  | .statClr _ => none
  | .reset => none
  | .crcClr => none
  | .crcByte _ => none
  | .crcRd => none
  | .encBegin => none
  | .encByte _ => none
  | .encCrcb _ => none
  | .encCrc => none
  | .encEnd => none
  | .decByte d => some d
  | .decPop => none
  | .decClr => none
  | .reserved _ => none

/-- The entry a response delivers, if it is DEC_POP's present record (R165). -/
def deliveredEntry : Response → Option Entry
  | .none => none
  | .byte _ => none
  | .status _ _ => none
  | .frame present payload bad _ _ => if present then some ⟨payload, bad⟩ else none

end Sys2Proof.Machine
end

