-- ==== Sys2Proof/Safety.lean ====
section
/-! DEFINITION. What a reachable state looks like (10_state.md R23) and what the host owes the block (R32, R35,
70_reset_and_hazards.md R233), in the terms the statements use. The block can reach no error state: it takes no trap
(60_exceptions.md R210). -/

namespace Sys2Proof.Safety

open Sys2Proof.Machine

/-- The four invariants of R23, and a fifth that follows from R161 to R163: a frame marked bad holds a byte or is being
discarded, so a decoder between frames carries no mark. -/
structure Inv (s : State) : Prop where
  /-- R23.1. -/
  bufferBounded : ∀ n, s.cfg.MAX_FRAME = some n → s.rx_buf.length ≤ n
  /-- R23.2. -/
  dropEmpty : s.rx_drop = true → s.rx_buf = []
  /-- R23.3. -/
  queueBounded : ∀ n, s.cfg.QUEUE_DEPTH = some n → s.rxq.length ≤ n
  /-- R23.4. -/
  entriesNonempty : ∀ e ∈ s.rxq, 1 ≤ e.payload.length
  /-- DEDUCED from R161 to R163 (assumption log 10). -/
  badInsideFrame : s.rx_bad = true → s.rx_buf ≠ [] ∨ s.rx_drop = true

/-- The block is ready for the host's next word: its configuration is legal and no operation is in progress (R31). -/
def Ready (s : State) : Prop := s.cfg.legal = true ∧ s.busy = none

/-- A host move that leaves no transmit byte unaccepted: the duty of R233 item 3 is met as the bytes come. -/
def prompt : HostMove → Bool
  | .issue _ => true
  | .start _ => false
  | .accept => true
  | .reset => true

/-- A move that lets an operation in progress go on or ends it (R35, R230). -/
def relieves : HostMove → Bool
  | .issue _ => false
  | .start _ => false
  | .accept => true
  | .reset => true

/-- The block's own record of R20: two states of it can differ only in the parameters, the logs and the host's side. -/
def SameBlock (s t : State) : Prop :=
  s.crc = t.crc ∧ s.rx_buf = t.rx_buf ∧ s.rx_esc = t.rx_esc ∧ s.rx_drop = t.rx_drop ∧ s.rx_bad = t.rx_bad ∧
  s.rxq = t.rxq ∧ s.escerr = t.escerr ∧ s.frmovf = t.frmovf ∧ s.qovf = t.qovf ∧ s.illop = t.illop

end Sys2Proof.Safety
end

