-- ==== Sys2Proof/Certificates/Slice0/Obligations.lean ====
section
/-! DEFINITION. The statements for the provers, from the numbered rules of spec/. Every statement about the block holds
for every configuration, since the parameters stand in the state. A statement of a whole next state is its own frame. -/

open Sys2Proof Sys2Proof.Machine Sys2Proof.Safety

/-! ### Encoding (30_encoding.md, and the table) -/

/-- R70 to R73: no bit of an operation's encoding is dropped. -/
def Obligations.DecodeEncodeRoundTrip : Prop :=
  ∀ i : Instr, WellFormed i → decode (encode i) = i

/-- R74: every command word decodes to a well-formed operation, and exactly one row of spec/opcode_table.json covers it,
the row of that operation. -/
def Obligations.EveryWordHasOneTableRow : Prop :=
  ∀ w : Word, WellFormed (decode w) ∧
    (opcodeRows.filter (·.covers w)).map (·.name) = [mnemonic (decode w)]

/-- R72: the opcode map, with every data byte; the match is exact, so any other opcode selects none of the 15. -/
def Obligations.OpcodeMapDecodes : Prop :=
  ∀ d : Byte,
    decode (0x00#8 ++ d) = .nop ∧ decode (0x01#8 ++ d) = .statRd ∧ decode (0x02#8 ++ d) = .statClr d ∧
    decode (0x03#8 ++ d) = .reset ∧ decode (0x10#8 ++ d) = .crcClr ∧ decode (0x11#8 ++ d) = .crcByte d ∧
    decode (0x12#8 ++ d) = .crcRd ∧ decode (0x20#8 ++ d) = .encBegin ∧ decode (0x21#8 ++ d) = .encByte d ∧
    decode (0x22#8 ++ d) = .encCrcb d ∧ decode (0x23#8 ++ d) = .encCrc ∧ decode (0x24#8 ++ d) = .encEnd ∧
    decode (0x30#8 ++ d) = .decByte d ∧ decode (0x31#8 ++ d) = .decPop ∧ decode (0x32#8 ++ d) = .decClr ∧
    ∀ op : Byte, op ∉ [0x00#8, 0x01#8, 0x02#8, 0x03#8, 0x10#8, 0x11#8, 0x12#8, 0x20#8, 0x21#8, 0x22#8, 0x23#8, 0x24#8,
      0x30#8, 0x31#8, 0x32#8] → decode (op ++ d) = .reserved op

/-- R73, R104: a word whose opcode lies in one of the four reserved ranges sets `illop`, returns `none`, and changes
nothing else. -/
def Obligations.ReservedWordsSetIllopOnly : Prop :=
  ∀ (op d : Byte) (s : State),
    (0x04 ≤ op.toNat ∧ op.toNat ≤ 0x0F) ∨ (0x13 ≤ op.toNat ∧ op.toNat ≤ 0x1F) ∨
      (0x25 ≤ op.toNat ∧ op.toNat ≤ 0x2F) ∨ (0x33 ≤ op.toNat) →
    decode (op ++ d) = .reserved op ∧
    exec (decode (op ++ d)) s = .next { s with illop := true, rsp := s.rsp ++ [.none] }

/-- R75: outside the five opcodes that take an operand the data field is ignored, and encoding writes 0 there. -/
def Obligations.DataFieldIgnoredWithoutOperand : Prop :=
  (∀ op d : Byte, op ≠ 0x02#8 → op ≠ 0x11#8 → op ≠ 0x21#8 → op ≠ 0x22#8 → op ≠ 0x30#8 →
    decode (op ++ d) = decode (op ++ 0x00#8)) ∧
  (∀ i : Instr, WellFormed i → takesOperand (opcode i) = false → encode i = opcode i ++ 0x00#8)

/-- From R70, R71 and R75: encoding what a word decodes to gives the word back, with the ignored data field at 0. -/
def Obligations.EncodeDecodeKeepsOperand : Prop :=
  ∀ w : Word, encode (decode w) = opField w ++ (if takesOperand (opField w) then dField w else 0x00#8)

/-- Words the spec writes out: R83's two examples, and words of 95_test_vectors.md, one or more of each unit. -/
def Obligations.SpecWordsDecode : Prop :=
  decode 0x1142 = .crcByte 0x42 ∧ decode 0x2400 = .encEnd ∧ decode 0x0000 = .nop ∧ decode 0x00FF = .nop ∧
  decode 0x0278 = .statClr 0x78 ∧ decode 0x12FF = .crcRd ∧ decode 0x22C0 = .encCrcb 0xC0 ∧
  decode 0x30DB = .decByte 0xDB ∧ decode 0x3100 = .decPop ∧ decode 0x05AA = .reserved 0x05 ∧
  decode 0xFFFF = .reserved 0xFF

/-- From R83: the statement of every operation that has a mnemonic assembles to that operation's word. -/
def Obligations.AssemblerReadsStatements : Prop :=
  ∀ i : Instr, WellFormed i → (∀ op, i ≠ .reserved op) →
    ∃ line, printInstr i = some line ∧ assembleLine line = .word (encode i)

/-- From R83: an operand for an operand-less operation, a missing operand and a second operand are assembly errors. -/
def Obligations.AssemblerOperandErrors : Prop :=
  ∀ row ∈ mnemonicTable, ∀ d : Byte,
    if takesOperand row.2 then
      assembleLine row.1 = .error .operandMissing ∧
      assembleLine (row.1 ++ ' ' :: printByte d ++ ' ' :: printByte d) = .error .operandExtra
    else assembleLine (row.1 ++ ' ' :: printByte d) = .error .operandExtra

/-! ### Steps and the host (10_state.md, 70_reset_and_hazards.md) -/

/-- A step runs the decoded operation: R31, R74, in the model's form (the host's next move issues the word; assumption logs
2 and 6). -/
def Obligations.StepRunsTheIssuedWord : Prop :=
  (∀ (s : State) (w : Word) (rest : List HostMove), Ready s → s.port = .issue w :: rest →
    step s = exec (decode w) { s with port := rest }) ∧
  (∀ (s : State) (w : Word), s.cfg.legal = true →
    step (s.withFetchWord 16 w.toNat) = exec (decode w) { s with busy := none })

/-- From R6, U6 and R210: a step answers no next state exactly when a bound of the configuration is `some 0`, and then
it refuses the configuration. -/
def Obligations.StepStopsOnlyOnIllegalConfiguration : Prop :=
  ∀ s : State,
    if s.cfg.MAX_FRAME = some 0 ∨ s.cfg.QUEUE_DEPTH = some 0 then step s = .refused .illegalConfiguration
    else ∃ t, step s = .next t

/-- From R222 and R8: with no move of the host to come the block holds its state, for any number of steps. -/
def Obligations.IdleBlockHoldsItsState : Prop :=
  ∀ (s : State) (n : Nat), Ready s → s.port = [] → core.run n s = .next s

/-- From R31 and R59: words issued one after the other run one after the other, in that order. -/
def Obligations.IssuedWordsRunInOrder : Prop :=
  ∀ (ws : List Word) (rest : List HostMove) (s : State), Ready s →
    core.run ws.length { s with port := ws.map .issue ++ rest } =
      runInstrs (ws.map decode) { s with port := rest }

/-- From R32 and R33: an operation whose bytes are accepted late has, once the last is accepted, the effect it has when
they are accepted at once. The next move must not be a reset, which would still cut the operation off (R230). -/
def Obligations.DelayedAcceptanceSameEffect : Prop :=
  ∀ (s : State) (w : Word) (rest : List HostMove), Ready s → rest.head? ≠ some .reset →
    core.run ((txBytes (decode w) s).length + 2)
        { s with port := .start w :: (List.replicate (txBytes (decode w) s).length .accept ++ rest) } =
      exec (decode w) { s with port := rest }

/-- From R35: an operation with a byte the host does not accept never completes, and the block accepts no further operation:
after `k` accepted bytes of more than `k`, with neither an acceptance nor a reset next, every further step leaves the
operation in progress and everything else as it was. That this holds also when an acceptance or a reset stands behind a
word offered too early is the model's choice (assumption log 11). -/
def Obligations.UnacceptedByteHangs : Prop :=
  ∀ (s : State) (w : Word) (k m : Nat) (rest : List HostMove), Ready s → k < (txBytes (decode w) s).length →
    (∀ mv, rest.head? = some mv → relieves mv = false) →
    core.run (k + 1 + m) { s with port := .start w :: (List.replicate k .accept ++ rest) } =
      .next { s with busy := some ⟨w, k⟩, port := rest }

/-- R230, R231: the reset input puts every field of the block at its reset value, keeps the parameters and what is on the
stream, and has the effect of RESET; an operation in progress is abandoned after any prefix of its bytes. That the
abandoned operation returns no response is the model's choice (assumption log 5). -/
def Obligations.HardwareResetAtAnyPoint : Prop :=
  (∀ (s : State) (rest : List HostMove), Ready s →
    step { s with port := .reset :: rest } =
      .next { State.resetWith s.cfg with tx := s.tx, rsp := s.rsp, port := rest } ∧
    exec .reset s = .next { State.resetWith s.cfg with tx := s.tx, rsp := s.rsp ++ [.none], port := s.port }) ∧
  (∀ (s : State) (w : Word) (k : Nat) (rest : List HostMove), Ready s → k ≤ (txBytes (decode w) s).length →
    core.run (k + 2) { s with port := .start w :: (List.replicate k .accept ++ .reset :: rest) } =
      .next { State.resetWith s.cfg with
        tx := s.tx ++ (txBytes (decode w) s).take k, rsp := s.rsp, port := rest })

/-- From R33 and R236: when the host accepts every byte as it comes, every move it makes is served in one step. -/
def Obligations.PromptHostIsServed : Prop :=
  ∀ s : State, Ready s → (∀ m ∈ s.port, prompt m = true) →
    ∃ t, core.run s.port.length s = .next t ∧ t.port = [] ∧ t.busy = none

/-- R34, R30: the transmit stream only grows, by at most two bytes in a step, whatever the host does. -/
def Obligations.StreamOnlyGrows : Prop :=
  ∀ s t : State, step s = .next t → ∃ bs, t.stream = s.stream ++ bs ∧ bs.length ≤ 2

/-- From R57: how many bytes each operation emits, and that they are the ones the host is asked to accept. -/
def Obligations.EmittedBytesPerOperation : Prop :=
  ∀ (i : Instr) (s : State), ∃ t, exec i s = .next t ∧ t.tx = s.tx ++ txBytes i s ∧
    match i with
    | .encBegin => (txBytes i s).length = if s.cfg.LEADING_END then 1 else 0
    | .encByte _ | .encCrcb _ | .encCrc => (txBytes i s).length = 1 ∨ (txBytes i s).length = 2
    | .encEnd => (txBytes i s).length = 1
    | _ => txBytes i s = []

/-- R20: the reset values, which the reset input and RESET both leave. The empty logs, moves and operation in progress of
the start state are the model's (assumption logs 2 to 4), so nothing is said of them here. -/
def Obligations.ResetValues : Prop :=
  ∀ c : Params, (State.resetWith c).cfg = c ∧ (State.resetWith c).crc = 0x00#8 ∧ (State.resetWith c).rx_buf = [] ∧
    (State.resetWith c).rx_esc = false ∧ (State.resetWith c).rx_drop = false ∧ (State.resetWith c).rx_bad = false ∧
    (State.resetWith c).rxq = [] ∧ (State.resetWith c).escerr = false ∧ (State.resetWith c).frmovf = false ∧
    (State.resetWith c).qovf = false ∧ (State.resetWith c).illop = false ∧
    (State.resetWith c).statusByte = 0x00#8 ∧
    ∀ s : State, SameBlock (hardwareReset s) (State.resetWith c) ∧
      ∃ t, exec .reset s = .next t ∧ SameBlock t (State.resetWith c)

/-! ### Control operations (40_control.md, 10_state.md) -/

/-- R100: NOP changes nothing and returns `none`. -/
def Obligations.NopResult : Prop :=
  ∀ s : State, exec .nop s = .next { s with rsp := s.rsp ++ [.none] }

/-- R101: STAT_RD returns the STATUS byte and the queue count, and changes nothing. -/
def Obligations.StatRdResult : Prop :=
  ∀ s : State, exec .statRd s = .next { s with rsp := s.rsp ++ [.status s.statusByte s.rxq.length] }

/-- R25: the eight bits of the STATUS byte, and that STAT_CLR, the one operation that writes it, changes none of the
read-only bits 0 to 2 and 7, whatever its mask. -/
def Obligations.StatusByteLayout : Prop :=
  ∀ s : State,
    s.statusByte.getLsbD 0 = decide (s.rxq ≠ []) ∧
    s.statusByte.getLsbD 1 = (decide (s.rx_buf ≠ []) || s.rx_esc || s.rx_drop) ∧
    s.statusByte.getLsbD 2 = s.rx_esc ∧ s.statusByte.getLsbD 3 = s.escerr ∧ s.statusByte.getLsbD 4 = s.frmovf ∧
    s.statusByte.getLsbD 5 = s.qovf ∧ s.statusByte.getLsbD 6 = s.illop ∧ s.statusByte.getLsbD 7 = false ∧
    ∀ d : Byte, ∃ t, exec (.statClr d) s = .next t ∧
      ∀ k ∈ [0, 1, 2, 7], t.statusByte.getLsbD k = s.statusByte.getLsbD k

/-- R102: STAT_CLR clears the sticky bits its mask selects, keeps the others, and changes nothing else; mask bits 0, 1,
2 and 7 do not matter. -/
def Obligations.StatClrResult : Prop :=
  ∀ (d : Byte) (s : State),
    exec (.statClr d) s = .next { s with
      escerr := if d.getLsbD 3 then false else s.escerr
      frmovf := if d.getLsbD 4 then false else s.frmovf
      qovf := if d.getLsbD 5 then false else s.qovf
      illop := if d.getLsbD 6 then false else s.illop
      rsp := s.rsp ++ [.none] }

/-- R103: RESET puts every field of the block at its reset value and retracts no transmitted byte. -/
def Obligations.ResetOperationResult : Prop :=
  ∀ s : State, exec .reset s = .next { s with
    crc := 0x00#8, rx_buf := [], rx_esc := false, rx_drop := false, rx_bad := false, rxq := [],
    escerr := false, frmovf := false, qovf := false, illop := false, rsp := s.rsp ++ [.none] }

/-- R24: a sticky bit that is set stays set, unless STAT_CLR clears it with a 1 in its place or RESET clears it. -/
def Obligations.StickyBitsClearedOnlyOnRequest : Prop :=
  ∀ (i : Instr) (s t : State), exec i s = .next t →
    (s.escerr = true → t.escerr = false → i = .reset ∨ ∃ d, i = .statClr d ∧ d.getLsbD 3 = true) ∧
    (s.frmovf = true → t.frmovf = false → i = .reset ∨ ∃ d, i = .statClr d ∧ d.getLsbD 4 = true) ∧
    (s.qovf = true → t.qovf = false → i = .reset ∨ ∃ d, i = .statClr d ∧ d.getLsbD 5 = true) ∧
    (s.illop = true → t.illop = false → i = .reset ∨ ∃ d, i = .statClr d ∧ d.getLsbD 6 = true)

/-- From R211, R161 to R163 and R104: each sticky bit that is clear is set exactly by its cause: ESC followed by a byte
other than ESC_END and ESC_ESC; a decoded byte beyond MAX_FRAME; an END that finds the queue full; a reserved opcode. -/
def Obligations.StickyBitsSetExactlyByTheirCause : Prop :=
  ∀ (i : Instr) (s t : State), exec i s = .next t →
    (s.escerr = false → (t.escerr = true ↔
      ∃ b, i = .decByte b ∧ s.rx_esc = true ∧ b ≠ SLIP_ESC_END ∧ b ≠ SLIP_ESC_ESC)) ∧
    (s.frmovf = false → (t.frmovf = true ↔
      ∃ b, i = .decByte b ∧ b ≠ SLIP_END ∧ (b = SLIP_ESC → s.rx_esc = true) ∧ s.rx_drop = false ∧
        s.cfg.MAX_FRAME = some s.rx_buf.length)) ∧
    (s.qovf = false → (t.qovf = true ↔
      i = .decByte SLIP_END ∧ s.rx_drop = false ∧ s.rx_buf ≠ [] ∧ s.cfg.QUEUE_DEPTH = some s.rxq.length)) ∧
    (s.illop = false → (t.illop = true ↔ ∃ op, i = .reserved op))

/-- R21: which operations write each field; the parameters and the host's side are written by none. -/
def Obligations.FieldsWrittenOnlyByTheirOperations : Prop :=
  ∀ (i : Instr) (s t : State), exec i s = .next t →
    t.cfg = s.cfg ∧ t.port = s.port ∧ t.busy = s.busy ∧
    (t.crc ≠ s.crc → i = .crcClr ∨ (∃ d, i = .crcByte d) ∨ (∃ d, i = .encCrcb d) ∨ i = .reset) ∧
    (¬(t.rx_buf = s.rx_buf ∧ t.rx_esc = s.rx_esc ∧ t.rx_drop = s.rx_drop ∧ t.rx_bad = s.rx_bad) →
      (∃ d, i = .decByte d) ∨ i = .decClr ∨ i = .reset) ∧
    (t.rxq ≠ s.rxq → (∃ d, i = .decByte d) ∨ i = .decPop ∨ i = .decClr ∨ i = .reset) ∧
    (¬(t.escerr = s.escerr ∧ t.frmovf = s.frmovf ∧ t.qovf = s.qovf) →
      (∃ d, i = .decByte d) ∨ (∃ d, i = .statClr d) ∨ i = .reset) ∧
    (t.illop ≠ s.illop → (∃ op, i = .reserved op) ∨ (∃ d, i = .statClr d) ∨ i = .reset)

/-- From R82 and R210: every operation completes with exactly one response record, of its own shape. -/
def Obligations.OneResponsePerOperation : Prop :=
  ∀ (i : Instr) (s : State), ∃ t, exec i s = .next t ∧
    match i with
    | .crcRd => t.rsp = s.rsp ++ [.byte s.crc]
    | .statRd => t.rsp = s.rsp ++ [.status s.statusByte s.rxq.length]
    | .decPop => ∃ present p bad tok aux, t.rsp = s.rsp ++ [.frame present p bad tok aux]
    | _ => t.rsp = s.rsp ++ [.none]

/-- R58: STAT_RD and CRC_RD have no side effect and answer the same however often they are issued; a second DEC_POP
returns the next payload. -/
def Obligations.ReadsRepeatAndPopsDoNot : Prop :=
  (∀ (n : Nat) (s : State), runInstrs (List.replicate n .statRd) s =
    .next { s with rsp := s.rsp ++ List.replicate n (.status s.statusByte s.rxq.length) }) ∧
  (∀ (n : Nat) (s : State), runInstrs (List.replicate n .crcRd) s =
    .next { s with rsp := s.rsp ++ List.replicate n (.byte s.crc) }) ∧
  (∀ (s : State) (e f : Entry) (q : List Entry), s.rxq = e :: f :: q →
    runInstrs [.decPop, .decPop] s = .next { s with
      rxq := q
      rsp := s.rsp ++ [.frame true e.payload e.bad (classify e.payload).1 (classify e.payload).2,
                       .frame true f.payload f.bad (classify f.payload).1 (classify f.payload).2] })

/-- R59: the block's state, what it has emitted and what it has answered since the last RESET are a function of the
operations since then, whatever went before. -/
def Obligations.StateIsFunctionOfOperationsSinceReset : Prop :=
  ∀ (is : List Instr) (s₁ s₂ : State), s₁.cfg = s₂.cfg →
    ∃ t₁ t₂ bs rs, runInstrs (.reset :: is) s₁ = .next t₁ ∧ runInstrs (.reset :: is) s₂ = .next t₂ ∧
      SameBlock t₁ t₂ ∧ t₁.tx = s₁.tx ++ bs ∧ t₂.tx = s₂.tx ++ bs ∧ t₁.rsp = s₁.rsp ++ rs ∧ t₂.rsp = s₂.rsp ++ rs

/-! ### The CRC unit (41_crc.md) -/

/-- R122, R123, R124: the three operations of the unit. -/
def Obligations.CrcOperationResults : Prop :=
  ∀ (d : Byte) (s : State),
    exec .crcClr s = .next { s with crc := 0x00#8, rsp := s.rsp ++ [.none] } ∧
    exec (.crcByte d) s = .next { s with crc := crcStep s.crc d, rsp := s.rsp ++ [.none] } ∧
    exec .crcRd s = .next { s with rsp := s.rsp ++ [.byte s.crc] }

/-- R120: the fold is the source's pseudocode over whole numbers, eight rounds with feedback 0x8C, and never leaves 8
bits. -/
def Obligations.CrcStepFollowsPseudocode : Prop :=
  ∀ acc b : Byte,
    (crcStep acc b).toNat =
      ((fun p : Nat × Nat =>
          (if (p.1 ^^^ p.2) &&& 1 = 1 then (p.1 >>> 1) ^^^ 0x8C else p.1 >>> 1, p.2 >>> 1))^[8]
        (acc.toNat, b.toNat)).1

/-- R126: the table form, with the 256 values of V-CRC-1, and zero bytes from a zero accumulator. -/
def Obligations.CrcTableForm : Prop :=
  (∀ acc b : Byte, crcTable (acc ^^^ b) = some (crcStep acc b)) ∧
  (∀ n : Nat, compute (List.replicate n 0x00#8) = 0x00#8)

/-- R121: the checksum starts at 0 and folds bytes left to right, with no final change. -/
def Obligations.ComputeFoldsLeftToRight : Prop :=
  compute [] = 0x00#8 ∧ ∀ (D : List Byte) (b : Byte), compute (D ++ [b]) = crcStep (compute D) b

/-- R127: a sequence followed by its own checksum folds to 0. -/
def Obligations.CrcSelfCheck : Prop :=
  ∀ D : List Byte, compute (D ++ [compute D]) = 0x00#8

/-- From R126 and R129: changing one byte of a sequence, anywhere, changes its checksum. -/
def Obligations.OneByteChangesChecksum : Prop :=
  ∀ (p q : List Byte) (a b : Byte), a ≠ b → compute (p ++ a :: q) ≠ compute (p ++ b :: q)

/-- R125: after CRC_CLR the accumulator is the checksum of the bytes folded since, whatever other operations stand between,
as long as none of them is CRC_CLR or RESET. -/
def Obligations.RunningAccumulatorIsCompute : Prop :=
  ∀ (is : List Instr) (s : State), (∀ i ∈ is, i ≠ .crcClr ∧ i ≠ .reset) →
    ∃ t, runInstrs (.crcClr :: is) s = .next t ∧ t.crc = compute (is.filterMap foldedByte)

/-! ### The SLIP encoder (42_slip_encoder.md, 44_messages.md) -/

/-- R142 to R146: what each encoder operation emits and that, but for ENC_CRCB's fold, it changes nothing else. -/
def Obligations.EncoderOperationResults : Prop :=
  ∀ (d : Byte) (s : State),
    exec .encBegin s =
      .next { s with tx := s.tx ++ (if s.cfg.LEADING_END then [SLIP_END] else []), rsp := s.rsp ++ [.none] } ∧
    exec (.encByte d) s = .next { s with tx := s.tx ++ slipEsc d, rsp := s.rsp ++ [.none] } ∧
    exec (.encCrcb d) s =
      .next { s with crc := crcStep s.crc d, tx := s.tx ++ slipEsc d, rsp := s.rsp ++ [.none] } ∧
    exec .encCrc s = .next { s with tx := s.tx ++ slipEsc s.crc, rsp := s.rsp ++ [.none] } ∧
    exec .encEnd s = .next { s with tx := s.tx ++ [SLIP_END], rsp := s.rsp ++ [.none] }

/-- R140, R77, R76: the wire form of each payload byte, in the literal values the spec takes from RFC 1055 (assumption
log 7). -/
def Obligations.WireFormOfPayloadByte : Prop :=
  slipEsc 0xC0#8 = [0xDB#8, 0xDC#8] ∧ slipEsc 0xDB#8 = [0xDB#8, 0xDD#8] ∧
  ∀ b : Byte, b ≠ 0xC0#8 → b ≠ 0xDB#8 → slipEsc b = [b]

/-- R141: the frame of a payload, and its length: that of the payload, one more for each byte that needs escaping, and the
markers. -/
def Obligations.FrameShapeAndLength : Prop :=
  ∀ (lead : Bool) (p : List Byte),
    encodeFrame lead p = (if lead then [SLIP_END] else []) ++ (p.map slipEsc).flatten ++ [SLIP_END] ∧
    (encodeFrame lead p).length =
      p.length + p.countP (fun b => b = SLIP_END || b = SLIP_ESC) + 1 + (if lead then 1 else 0)

/-- R149: no END stands inside an escaped payload, so the only END bytes of a frame are its markers. -/
def Obligations.NoEndInsideEscapedPayload : Prop :=
  ∀ (lead : Bool) (p : List Byte), SLIP_END ∉ slipEscAll p ∧
    (encodeFrame lead p).count SLIP_END = 1 + (if lead then 1 else 0)

/-- R147: ENC_BEGIN, an ENC_BYTE or ENC_CRCB for each payload byte with other units' operations between, and ENC_END append
the frame of the payload and nothing more. -/
def Obligations.FrameEqualsFunction : Prop :=
  ∀ (is : List Instr) (s : State), (∀ i ∈ is, i ≠ .encBegin ∧ i ≠ .encCrc ∧ i ≠ .encEnd) →
    ∃ t, runInstrs (.encBegin :: is ++ [.encEnd]) s = .next t ∧
      t.tx = s.tx ++ encodeFrame s.cfg.LEADING_END (is.filterMap payloadByte)

/-- R196, R192 to R195: each SEND pseudo-instruction emits exactly the frame of its command payload, and SEND_LINE leaves
the checksum in the accumulator. -/
def Obligations.SendPseudoInstructionsEmitFrames : Prop :=
  (∀ (sn en : Byte) (c : Bool) (s : State), ∃ t, runInstrs (Pseudo.sendStart sn en c).expand s = .next t ∧
    t.tx = s.tx ++ encodeFrame s.cfg.LEADING_END [0x01#8, sn, en, if c then 0x01#8 else 0x00#8]) ∧
  (∀ s : State, ∃ t, runInstrs Pseudo.sendInfo.expand s = .next t ∧
    t.tx = s.tx ++ encodeFrame s.cfg.LEADING_END [0x03#8]) ∧
  (∀ s : State, ∃ t, runInstrs Pseudo.sendTest.expand s = .next t ∧
    t.tx = s.tx ++ encodeFrame s.cfg.LEADING_END [0x04#8]) ∧
  (∀ (ln f : Byte) (ds : List Byte) (s : State), ∃ t, runInstrs (Pseudo.sendLine ln ds f).expand s = .next t ∧
    t.crc = compute ([0x42#8, ln] ++ ds ++ [f]) ∧
    t.tx = s.tx ++ encodeFrame s.cfg.LEADING_END
      ([0x42#8, ln] ++ ds ++ [f] ++ [compute ([0x42#8, ln] ++ ds ++ [f])]))

/-- From R84: CRC_COMPUTE answers the checksum of its operands. -/
def Obligations.CrcComputeAnswersChecksum : Prop :=
  ∀ (bs : List Byte) (s : State), ∃ t, runInstrs (Pseudo.crcCompute bs).expand s = .next t ∧
    t.rsp = s.rsp ++ List.replicate (bs.length + 1) .none ++ [.byte (compute bs)]

/-! ### The SLIP decoder and the queue (43_slip_decoder.md, 44_messages.md) -/

/-- R160, R161: what one received byte does, by whether an ESC is pending and which byte it is. -/
def Obligations.DecByteFollowsDecoderStep : Prop :=
  ∀ (b : Byte) (s : State), ∃ t, exec (.decByte b) s = .next { t with rsp := s.rsp ++ [.none] } ∧
    (s.rx_esc = true → b = SLIP_END →
      t = { s with rx_esc := false, escerr := true, rx_bad := true }.finishFrame) ∧
    (s.rx_esc = true → b = SLIP_ESC_END → t = { s with rx_esc := false }.rxStore SLIP_END) ∧
    (s.rx_esc = true → b = SLIP_ESC_ESC → t = { s with rx_esc := false }.rxStore SLIP_ESC) ∧
    (s.rx_esc = true → b ≠ SLIP_END → b ≠ SLIP_ESC_END → b ≠ SLIP_ESC_ESC →
      t = { s with rx_esc := false, escerr := true, rx_bad := true }.rxStore b) ∧
    (s.rx_esc = false → b = SLIP_END → t = s.finishFrame) ∧
    (s.rx_esc = false → b = SLIP_ESC → t = { s with rx_esc := true }) ∧
    (s.rx_esc = false → b ≠ SLIP_END → b ≠ SLIP_ESC → t = s.rxStore b)

/-- R162: storing a decoded byte: dropped while a frame is being discarded, the frame discarded at byte MAX_FRAME + 1,
else appended. -/
def Obligations.StoreByteCases : Prop :=
  ∀ (v : Byte) (s : State),
    (s.rx_drop = true → s.rxStore v = s) ∧
    (s.rx_drop = false → s.cfg.MAX_FRAME = some s.rx_buf.length →
      s.rxStore v = { s with rx_buf := [], rx_drop := true, frmovf := true }) ∧
    (s.rx_drop = false → s.cfg.MAX_FRAME ≠ some s.rx_buf.length →
      s.rxStore v = { s with rx_buf := s.rx_buf ++ [v] })

/-- R163: END closes the frame: an overflowed or empty one queues nothing, a full queue rejects the new payload and sets
`qovf`, else the payload and its mark join the tail; the carry-over state is cleared each time. -/
def Obligations.FinishFrameCases : Prop :=
  ∀ s : State,
    (s.rx_drop = true ∨ s.rx_buf = [] →
      s.finishFrame = { s with rx_buf := [], rx_esc := false, rx_drop := false, rx_bad := false }) ∧
    (s.rx_drop = false → s.rx_buf ≠ [] → s.cfg.QUEUE_DEPTH = some s.rxq.length →
      s.finishFrame = { s with
        rx_buf := [], rx_esc := false, rx_drop := false, rx_bad := false, qovf := true }) ∧
    (s.rx_drop = false → s.rx_buf ≠ [] → s.cfg.QUEUE_DEPTH ≠ some s.rxq.length →
      s.finishFrame = { s with
        rx_buf := [], rx_esc := false, rx_drop := false, rx_bad := false
        rxq := s.rxq ++ [⟨s.rx_buf, s.rx_bad⟩] })

/-- R165: DEC_POP on an empty queue and on a queue with a head. -/
def Obligations.DecPopResult : Prop :=
  ∀ s : State,
    (s.rxq = [] → exec .decPop s = .next { s with rsp := s.rsp ++ [.frame false [] false .none 0x00#8] }) ∧
    (∀ (e : Entry) (q : List Entry), s.rxq = e :: q →
      exec .decPop s = .next { s with
        rxq := q
        rsp := s.rsp ++ [.frame true e.payload e.bad (classify e.payload).1 (classify e.payload).2] })

/-- From R60, R29 and R167: DEC_POPs return the pending payloads oldest first, each once and whole, with its own mark and
classification. -/
def Obligations.QueueDrainsInOrder : Prop :=
  ∀ (n : Nat) (s : State), n ≤ s.rxq.length →
    runInstrs (List.replicate n .decPop) s = .next { s with
      rxq := s.rxq.drop n
      rsp := s.rsp ++ (s.rxq.take n).map
        fun e => .frame true e.payload e.bad (classify e.payload).1 (classify e.payload).2 }

/-- R166: DEC_CLR empties the carry-over state and the queue, and keeps the sticky bits, the accumulator and the
stream. -/
def Obligations.DecClrResult : Prop :=
  ∀ s : State, exec .decClr s = .next { s with
    rx_buf := [], rx_esc := false, rx_drop := false, rx_bad := false, rxq := [], rsp := s.rsp ++ [.none] }

/-- R190, R79: the token and auxiliary byte of every payload. -/
def Obligations.ClassifyTable : Prop :=
  classify [] = (.none, 0x00#8) ∧
  ∀ rest : List Byte,
    classify (0xC1#8 :: rest) = (.confirmStart, rest.headD 0x00#8) ∧
    classify (0xC3#8 :: rest) = (.confirmInfo, rest.headD 0x00#8) ∧
    classify (0x82#8 :: rest) = (.requestLine, rest.headD 0x00#8) ∧
    classify (0xC4#8 :: rest) = (.confirmTest, rest.headD 0x00#8) ∧
    classify (0x84#8 :: rest) = (.indicateState, rest.headD 0x00#8) ∧
    ∀ b : Byte, b ∉ [0xC1#8, 0xC3#8, 0x82#8, 0xC4#8, 0x84#8] → classify (b :: rest) = (.unknown, 0x00#8)

/-- From R191 and R23: in a state that meets the invariants, DEC_POP reports the token None exactly when the queue is
empty. -/
def Obligations.NoneTokenOnlyFromEmptyQueue : Prop :=
  ∀ s : State, Inv s → ∃ t present p bad tok aux, exec .decPop s = .next t ∧
    t.rsp = s.rsp ++ [.frame present p bad tok aux] ∧ (tok = .none ↔ s.rxq = []) ∧
    (present = true ↔ s.rxq ≠ []) ∧ (present = true → 1 ≤ p.length)

/-- R171: whatever state the decoder is in, an END brings it back between frames; the frame in progress is dropped if it
was empty or overflowed, else delivered with the bytes that arrived, unless the queue is full (R163). -/
def Obligations.EndResynchronises : Prop :=
  ∀ s : State, ∃ t, exec (.decByte SLIP_END) s = .next t ∧
    t.rx_buf = [] ∧ t.rx_esc = false ∧ t.rx_drop = false ∧ t.rx_bad = false ∧
    t.rxq = if s.rx_drop = true ∨ s.rx_buf = [] ∨ s.cfg.QUEUE_DEPTH = some s.rxq.length then s.rxq
      else s.rxq ++ [⟨s.rx_buf, s.rx_bad || s.rx_esc⟩]

/-- R214: the three combinations of conditions that one received byte can raise. -/
def Obligations.SimultaneousConditions : Prop :=
  (∀ s : State, s.rx_esc = true → s.rx_drop = false → s.rx_buf = [] →
    exec (.decByte SLIP_END) s = .next { s with
      rx_esc := false, rx_bad := false, escerr := true, rsp := s.rsp ++ [.none] }) ∧
  (∀ s : State, s.rx_esc = true → s.rx_drop = false → s.rx_buf ≠ [] → s.cfg.QUEUE_DEPTH = some s.rxq.length →
    exec (.decByte SLIP_END) s = .next { s with
      rx_buf := [], rx_esc := false, rx_bad := false, escerr := true, qovf := true, rsp := s.rsp ++ [.none] }) ∧
  (∀ (s : State) (b : Byte), s.rx_esc = true → s.rx_drop = false → s.cfg.MAX_FRAME = some s.rx_buf.length →
    b ≠ SLIP_END → b ≠ SLIP_ESC_END → b ≠ SLIP_ESC_ESC →
    exec (.decByte b) s = .next { s with
      rx_buf := [], rx_esc := false, rx_drop := true, rx_bad := true, escerr := true, frmovf := true,
      rsp := s.rsp ++ [.none] })

/-- R26, with the fifth invariant (DEDUCED, assumption log 10) as part of the premise: STATUS bit RXPART is 0 exactly when the
decoder sits between frames, with nothing carried over. -/
def Obligations.RxpartClearMeansBetweenFrames : Prop :=
  ∀ s : State, Inv s →
    (s.statusByte.getLsbD 1 = false ↔
      s.rx_buf = [] ∧ s.rx_esc = false ∧ s.rx_drop = false ∧ s.rx_bad = false)

/-- From R170, with the fifth invariant (DEDUCED, assumption log 10) as part of the premise: fed the frames of payloads
that fit, a decoder between frames queues exactly the non-empty ones, in order, unmarked, and ends between frames with no
sticky bit touched, for either value of LEADING_END; one non-empty payload comes back from DEC_POP as it was sent. -/
def Obligations.FramesRoundTrip : Prop :=
  (∀ (lead : Bool) (ps : List (List Byte)) (s : State), Inv s → s.rxpart = false →
    (∀ n, s.cfg.MAX_FRAME = some n → ∀ p ∈ ps, p.length ≤ n) →
    (∀ n, s.cfg.QUEUE_DEPTH = some n → s.rxq.length + (ps.filter (· ≠ [])).length ≤ n) →
    runInstrs ((ps.flatMap (encodeFrame lead)).map .decByte) s = .next { s with
      rxq := s.rxq ++ (ps.filter (· ≠ [])).map (fun p => ⟨p, false⟩)
      rsp := s.rsp ++ List.replicate (ps.flatMap (encodeFrame lead)).length .none }) ∧
  (∀ (lead : Bool) (p : List Byte) (s : State), Inv s → s.rxpart = false → s.rxq = [] → p ≠ [] →
    (∀ n, s.cfg.MAX_FRAME = some n → p.length ≤ n) → s.cfg.legal = true →
    ∃ t, runInstrs ((encodeFrame lead p).map .decByte ++ [.decPop]) s = .next t ∧ t.rxq = [] ∧
      t.rsp = s.rsp ++ List.replicate (encodeFrame lead p).length .none ++
        [.frame true p false (classify p).1 (classify p).2])

/-- From R169 and R60: with an unbounded queue, the payloads the block delivers and still holds, and the frame it is receiving,
depend only on the received bytes, in their order, and not on the other operations between them; none is split,
lost, repeated or reordered. -/
def Obligations.InterleavingDoesNotChangePayloads : Prop :=
  ∀ (is : List Instr) (s : State), s.cfg.QUEUE_DEPTH = none → (∀ i ∈ is, i ≠ .reset ∧ i ≠ .decClr) →
    ∃ t u rs, runInstrs is s = .next t ∧ runInstrs ((is.filterMap receivedByte).map .decByte) s = .next u ∧
      t.rsp = s.rsp ++ rs ∧ rs.filterMap deliveredEntry ++ t.rxq = u.rxq ∧
      t.rx_buf = u.rx_buf ∧ t.rx_esc = u.rx_esc ∧ t.rx_drop = u.rx_drop ∧ t.rx_bad = u.rx_bad

/-! ### Invariants (10_state.md R23) -/

/-- R23 at reset, for every configuration. -/
def Obligations.InvariantHoldsAtReset : Prop :=
  ∀ c : Params, Inv (State.resetWith c)

/-- R23: every step keeps the invariants, whatever the host's next move. The fifth is DEDUCED from R161 to R163 (assumption
log 10). -/
def Obligations.InvariantKeptByEveryStep : Prop :=
  ∀ s t : State, Inv s → step s = .next t → Inv t
end

