-- ==== Sys2Proof/Laws/Decode.lean ====
section
/-! SUPPORT. The fields of a command word, and everything the decoder can answer, said once. -/

namespace Sys2Proof

@[simp] theorem opField_append (op d : Byte) : opField (op ++ d) = op := BitVec.extractLsb'_append_eq_left

@[simp] theorem dField_append (op d : Byte) : dField (op ++ d) = d := BitVec.extractLsb'_append_eq_right

/-- A word is its two fields. -/
theorem opField_append_dField (w : Word) : opField w ++ dField w = w := by
  apply BitVec.eq_of_getLsbD_eq
  intro i hi
  simp only [opField, dField, BitVec.getLsbD_append, BitVec.getLsbD_extractLsb']
  by_cases h : i < 8
  · simp [h]
  · simp [h, show i - 8 < 8 by omega, show 8 + (i - 8) = i by omega]

/-- What R72 does not list lies in a range of R73. -/
theorem reservedOpcode_of_unlisted : ∀ op : Byte,
    op ∉ [0x00#8, 0x01#8, 0x02#8, 0x03#8, 0x10#8, 0x11#8, 0x12#8, 0x20#8, 0x21#8, 0x22#8, 0x23#8, 0x24#8, 0x30#8, 0x31#8, 0x32#8] →
    reservedOpcode op = true := by
  decide

/-- Everything the decoder can answer (30_encoding.md R72, R73). -/
theorem decodeFields_cases (op d : Byte) :
    (op = 0x00#8 ∧ decodeFields op d = .nop) ∨
    (op = 0x01#8 ∧ decodeFields op d = .statRd) ∨
    (op = 0x02#8 ∧ decodeFields op d = .statClr d) ∨
    (op = 0x03#8 ∧ decodeFields op d = .reset) ∨
    (op = 0x10#8 ∧ decodeFields op d = .crcClr) ∨
    (op = 0x11#8 ∧ decodeFields op d = .crcByte d) ∨
    (op = 0x12#8 ∧ decodeFields op d = .crcRd) ∨
    (op = 0x20#8 ∧ decodeFields op d = .encBegin) ∨
    (op = 0x21#8 ∧ decodeFields op d = .encByte d) ∨
    (op = 0x22#8 ∧ decodeFields op d = .encCrcb d) ∨
    (op = 0x23#8 ∧ decodeFields op d = .encCrc) ∨
    (op = 0x24#8 ∧ decodeFields op d = .encEnd) ∨
    (op = 0x30#8 ∧ decodeFields op d = .decByte d) ∨
    (op = 0x31#8 ∧ decodeFields op d = .decPop) ∨
    (op = 0x32#8 ∧ decodeFields op d = .decClr) ∨
    (reservedOpcode op = true ∧ decodeFields op d = .reserved op) := by
  unfold decodeFields
  refine if h0 : op = 0x00#8 then .inl ⟨h0, if_pos h0⟩ else .inr ?_
  rw [if_neg h0]
  refine if h1 : op = 0x01#8 then .inl ⟨h1, if_pos h1⟩ else .inr ?_
  rw [if_neg h1]
  refine if h2 : op = 0x02#8 then .inl ⟨h2, if_pos h2⟩ else .inr ?_
  rw [if_neg h2]
  refine if h3 : op = 0x03#8 then .inl ⟨h3, if_pos h3⟩ else .inr ?_
  rw [if_neg h3]
  refine if h4 : op = 0x10#8 then .inl ⟨h4, if_pos h4⟩ else .inr ?_
  rw [if_neg h4]
  refine if h5 : op = 0x11#8 then .inl ⟨h5, if_pos h5⟩ else .inr ?_
  rw [if_neg h5]
  refine if h6 : op = 0x12#8 then .inl ⟨h6, if_pos h6⟩ else .inr ?_
  rw [if_neg h6]
  refine if h7 : op = 0x20#8 then .inl ⟨h7, if_pos h7⟩ else .inr ?_
  rw [if_neg h7]
  refine if h8 : op = 0x21#8 then .inl ⟨h8, if_pos h8⟩ else .inr ?_
  rw [if_neg h8]
  refine if h9 : op = 0x22#8 then .inl ⟨h9, if_pos h9⟩ else .inr ?_
  rw [if_neg h9]
  refine if h10 : op = 0x23#8 then .inl ⟨h10, if_pos h10⟩ else .inr ?_
  rw [if_neg h10]
  refine if h11 : op = 0x24#8 then .inl ⟨h11, if_pos h11⟩ else .inr ?_
  rw [if_neg h11]
  refine if h12 : op = 0x30#8 then .inl ⟨h12, if_pos h12⟩ else .inr ?_
  rw [if_neg h12]
  refine if h13 : op = 0x31#8 then .inl ⟨h13, if_pos h13⟩ else .inr ?_
  rw [if_neg h13]
  refine if h14 : op = 0x32#8 then .inl ⟨h14, if_pos h14⟩ else .inr ?_
  rw [if_neg h14]
  exact ⟨reservedOpcode_of_unlisted op (by simp [h0, h1, h2, h3, h4, h5, h6, h7, h8, h9, h10, h11, h12, h13, h14]), rfl⟩

end Sys2Proof
end

