-- ==== Sys2Proof/Laws/State.lean ====
section
/-! SUPPORT. What each named update of the state does to each field, so that no later proof unfolds an update. -/

namespace Sys2Proof.Machine

/-! ### `emitAll` -/

@[simp] theorem State.emitAll_cfg (bs : List Byte) (s : State) : (s.emitAll bs).cfg = s.cfg := rfl
@[simp] theorem State.emitAll_crc (bs : List Byte) (s : State) : (s.emitAll bs).crc = s.crc := rfl
@[simp] theorem State.emitAll_rx_buf (bs : List Byte) (s : State) : (s.emitAll bs).rx_buf = s.rx_buf := rfl
@[simp] theorem State.emitAll_rx_esc (bs : List Byte) (s : State) : (s.emitAll bs).rx_esc = s.rx_esc := rfl
@[simp] theorem State.emitAll_rx_drop (bs : List Byte) (s : State) : (s.emitAll bs).rx_drop = s.rx_drop := rfl
@[simp] theorem State.emitAll_rx_bad (bs : List Byte) (s : State) : (s.emitAll bs).rx_bad = s.rx_bad := rfl
@[simp] theorem State.emitAll_rxq (bs : List Byte) (s : State) : (s.emitAll bs).rxq = s.rxq := rfl
@[simp] theorem State.emitAll_escerr (bs : List Byte) (s : State) : (s.emitAll bs).escerr = s.escerr := rfl
@[simp] theorem State.emitAll_frmovf (bs : List Byte) (s : State) : (s.emitAll bs).frmovf = s.frmovf := rfl
@[simp] theorem State.emitAll_qovf (bs : List Byte) (s : State) : (s.emitAll bs).qovf = s.qovf := rfl
@[simp] theorem State.emitAll_illop (bs : List Byte) (s : State) : (s.emitAll bs).illop = s.illop := rfl
@[simp] theorem State.emitAll_tx (bs : List Byte) (s : State) : (s.emitAll bs).tx = s.tx ++ bs := rfl
@[simp] theorem State.emitAll_rsp (bs : List Byte) (s : State) : (s.emitAll bs).rsp = s.rsp := rfl
@[simp] theorem State.emitAll_busy (bs : List Byte) (s : State) : (s.emitAll bs).busy = s.busy := rfl
@[simp] theorem State.emitAll_port (bs : List Byte) (s : State) : (s.emitAll bs).port = s.port := rfl

/-! ### `respond` -/

@[simp] theorem State.respond_cfg (r : Response) (s : State) : (s.respond r).cfg = s.cfg := rfl
@[simp] theorem State.respond_crc (r : Response) (s : State) : (s.respond r).crc = s.crc := rfl
@[simp] theorem State.respond_rx_buf (r : Response) (s : State) : (s.respond r).rx_buf = s.rx_buf := rfl
@[simp] theorem State.respond_rx_esc (r : Response) (s : State) : (s.respond r).rx_esc = s.rx_esc := rfl
@[simp] theorem State.respond_rx_drop (r : Response) (s : State) : (s.respond r).rx_drop = s.rx_drop := rfl
@[simp] theorem State.respond_rx_bad (r : Response) (s : State) : (s.respond r).rx_bad = s.rx_bad := rfl
@[simp] theorem State.respond_rxq (r : Response) (s : State) : (s.respond r).rxq = s.rxq := rfl
@[simp] theorem State.respond_escerr (r : Response) (s : State) : (s.respond r).escerr = s.escerr := rfl
@[simp] theorem State.respond_frmovf (r : Response) (s : State) : (s.respond r).frmovf = s.frmovf := rfl
@[simp] theorem State.respond_qovf (r : Response) (s : State) : (s.respond r).qovf = s.qovf := rfl
@[simp] theorem State.respond_illop (r : Response) (s : State) : (s.respond r).illop = s.illop := rfl
@[simp] theorem State.respond_tx (r : Response) (s : State) : (s.respond r).tx = s.tx := rfl
@[simp] theorem State.respond_rsp (r : Response) (s : State) : (s.respond r).rsp = s.rsp ++ [r] := rfl
@[simp] theorem State.respond_busy (r : Response) (s : State) : (s.respond r).busy = s.busy := rfl
@[simp] theorem State.respond_port (r : Response) (s : State) : (s.respond r).port = s.port := rfl

/-! ### `setCrc` -/

@[simp] theorem State.setCrc_cfg (v : Byte) (s : State) : (s.setCrc v).cfg = s.cfg := rfl
@[simp] theorem State.setCrc_crc (v : Byte) (s : State) : (s.setCrc v).crc = v := rfl
@[simp] theorem State.setCrc_rx_buf (v : Byte) (s : State) : (s.setCrc v).rx_buf = s.rx_buf := rfl
@[simp] theorem State.setCrc_rx_esc (v : Byte) (s : State) : (s.setCrc v).rx_esc = s.rx_esc := rfl
@[simp] theorem State.setCrc_rx_drop (v : Byte) (s : State) : (s.setCrc v).rx_drop = s.rx_drop := rfl
@[simp] theorem State.setCrc_rx_bad (v : Byte) (s : State) : (s.setCrc v).rx_bad = s.rx_bad := rfl
@[simp] theorem State.setCrc_rxq (v : Byte) (s : State) : (s.setCrc v).rxq = s.rxq := rfl
@[simp] theorem State.setCrc_escerr (v : Byte) (s : State) : (s.setCrc v).escerr = s.escerr := rfl
@[simp] theorem State.setCrc_frmovf (v : Byte) (s : State) : (s.setCrc v).frmovf = s.frmovf := rfl
@[simp] theorem State.setCrc_qovf (v : Byte) (s : State) : (s.setCrc v).qovf = s.qovf := rfl
@[simp] theorem State.setCrc_illop (v : Byte) (s : State) : (s.setCrc v).illop = s.illop := rfl
@[simp] theorem State.setCrc_tx (v : Byte) (s : State) : (s.setCrc v).tx = s.tx := rfl
@[simp] theorem State.setCrc_rsp (v : Byte) (s : State) : (s.setCrc v).rsp = s.rsp := rfl
@[simp] theorem State.setCrc_busy (v : Byte) (s : State) : (s.setCrc v).busy = s.busy := rfl
@[simp] theorem State.setCrc_port (v : Byte) (s : State) : (s.setCrc v).port = s.port := rfl

/-! ### `clearSticky` -/

@[simp] theorem State.clearSticky_cfg (d : Byte) (s : State) : (s.clearSticky d).cfg = s.cfg := rfl
@[simp] theorem State.clearSticky_crc (d : Byte) (s : State) : (s.clearSticky d).crc = s.crc := rfl
@[simp] theorem State.clearSticky_rx_buf (d : Byte) (s : State) : (s.clearSticky d).rx_buf = s.rx_buf := rfl
@[simp] theorem State.clearSticky_rx_esc (d : Byte) (s : State) : (s.clearSticky d).rx_esc = s.rx_esc := rfl
@[simp] theorem State.clearSticky_rx_drop (d : Byte) (s : State) : (s.clearSticky d).rx_drop = s.rx_drop := rfl
@[simp] theorem State.clearSticky_rx_bad (d : Byte) (s : State) : (s.clearSticky d).rx_bad = s.rx_bad := rfl
@[simp] theorem State.clearSticky_rxq (d : Byte) (s : State) : (s.clearSticky d).rxq = s.rxq := rfl
@[simp] theorem State.clearSticky_escerr (d : Byte) (s : State) : (s.clearSticky d).escerr = stickyAfter d ESCERR_BIT s.escerr := rfl
@[simp] theorem State.clearSticky_frmovf (d : Byte) (s : State) : (s.clearSticky d).frmovf = stickyAfter d FRMOVF_BIT s.frmovf := rfl
@[simp] theorem State.clearSticky_qovf (d : Byte) (s : State) : (s.clearSticky d).qovf = stickyAfter d QOVF_BIT s.qovf := rfl
@[simp] theorem State.clearSticky_illop (d : Byte) (s : State) : (s.clearSticky d).illop = stickyAfter d ILLOP_BIT s.illop := rfl
@[simp] theorem State.clearSticky_tx (d : Byte) (s : State) : (s.clearSticky d).tx = s.tx := rfl
@[simp] theorem State.clearSticky_rsp (d : Byte) (s : State) : (s.clearSticky d).rsp = s.rsp := rfl
@[simp] theorem State.clearSticky_busy (d : Byte) (s : State) : (s.clearSticky d).busy = s.busy := rfl
@[simp] theorem State.clearSticky_port (d : Byte) (s : State) : (s.clearSticky d).port = s.port := rfl

/-! ### `noteBadEscape` -/

@[simp] theorem State.noteBadEscape_cfg (s : State) : s.noteBadEscape.cfg = s.cfg := rfl
@[simp] theorem State.noteBadEscape_crc (s : State) : s.noteBadEscape.crc = s.crc := rfl
@[simp] theorem State.noteBadEscape_rx_buf (s : State) : s.noteBadEscape.rx_buf = s.rx_buf := rfl
@[simp] theorem State.noteBadEscape_rx_esc (s : State) : s.noteBadEscape.rx_esc = s.rx_esc := rfl
@[simp] theorem State.noteBadEscape_rx_drop (s : State) : s.noteBadEscape.rx_drop = s.rx_drop := rfl
@[simp] theorem State.noteBadEscape_rx_bad (s : State) : s.noteBadEscape.rx_bad = true := rfl
@[simp] theorem State.noteBadEscape_rxq (s : State) : s.noteBadEscape.rxq = s.rxq := rfl
@[simp] theorem State.noteBadEscape_escerr (s : State) : s.noteBadEscape.escerr = true := rfl
@[simp] theorem State.noteBadEscape_frmovf (s : State) : s.noteBadEscape.frmovf = s.frmovf := rfl
@[simp] theorem State.noteBadEscape_qovf (s : State) : s.noteBadEscape.qovf = s.qovf := rfl
@[simp] theorem State.noteBadEscape_illop (s : State) : s.noteBadEscape.illop = s.illop := rfl
@[simp] theorem State.noteBadEscape_tx (s : State) : s.noteBadEscape.tx = s.tx := rfl
@[simp] theorem State.noteBadEscape_rsp (s : State) : s.noteBadEscape.rsp = s.rsp := rfl
@[simp] theorem State.noteBadEscape_busy (s : State) : s.noteBadEscape.busy = s.busy := rfl
@[simp] theorem State.noteBadEscape_port (s : State) : s.noteBadEscape.port = s.port := rfl

/-! ### `noteIllegal` -/

@[simp] theorem State.noteIllegal_cfg (s : State) : s.noteIllegal.cfg = s.cfg := rfl
@[simp] theorem State.noteIllegal_crc (s : State) : s.noteIllegal.crc = s.crc := rfl
@[simp] theorem State.noteIllegal_rx_buf (s : State) : s.noteIllegal.rx_buf = s.rx_buf := rfl
@[simp] theorem State.noteIllegal_rx_esc (s : State) : s.noteIllegal.rx_esc = s.rx_esc := rfl
@[simp] theorem State.noteIllegal_rx_drop (s : State) : s.noteIllegal.rx_drop = s.rx_drop := rfl
@[simp] theorem State.noteIllegal_rx_bad (s : State) : s.noteIllegal.rx_bad = s.rx_bad := rfl
@[simp] theorem State.noteIllegal_rxq (s : State) : s.noteIllegal.rxq = s.rxq := rfl
@[simp] theorem State.noteIllegal_escerr (s : State) : s.noteIllegal.escerr = s.escerr := rfl
@[simp] theorem State.noteIllegal_frmovf (s : State) : s.noteIllegal.frmovf = s.frmovf := rfl
@[simp] theorem State.noteIllegal_qovf (s : State) : s.noteIllegal.qovf = s.qovf := rfl
@[simp] theorem State.noteIllegal_illop (s : State) : s.noteIllegal.illop = true := rfl
@[simp] theorem State.noteIllegal_tx (s : State) : s.noteIllegal.tx = s.tx := rfl
@[simp] theorem State.noteIllegal_rsp (s : State) : s.noteIllegal.rsp = s.rsp := rfl
@[simp] theorem State.noteIllegal_busy (s : State) : s.noteIllegal.busy = s.busy := rfl
@[simp] theorem State.noteIllegal_port (s : State) : s.noteIllegal.port = s.port := rfl

/-! ### `clearCarryOver` -/

@[simp] theorem State.clearCarryOver_cfg (s : State) : s.clearCarryOver.cfg = s.cfg := rfl
@[simp] theorem State.clearCarryOver_crc (s : State) : s.clearCarryOver.crc = s.crc := rfl
@[simp] theorem State.clearCarryOver_rx_buf (s : State) : s.clearCarryOver.rx_buf = [] := rfl
@[simp] theorem State.clearCarryOver_rx_esc (s : State) : s.clearCarryOver.rx_esc = false := rfl
@[simp] theorem State.clearCarryOver_rx_drop (s : State) : s.clearCarryOver.rx_drop = false := rfl
@[simp] theorem State.clearCarryOver_rx_bad (s : State) : s.clearCarryOver.rx_bad = false := rfl
@[simp] theorem State.clearCarryOver_rxq (s : State) : s.clearCarryOver.rxq = s.rxq := rfl
@[simp] theorem State.clearCarryOver_escerr (s : State) : s.clearCarryOver.escerr = s.escerr := rfl
@[simp] theorem State.clearCarryOver_frmovf (s : State) : s.clearCarryOver.frmovf = s.frmovf := rfl
@[simp] theorem State.clearCarryOver_qovf (s : State) : s.clearCarryOver.qovf = s.qovf := rfl
@[simp] theorem State.clearCarryOver_illop (s : State) : s.clearCarryOver.illop = s.illop := rfl
@[simp] theorem State.clearCarryOver_tx (s : State) : s.clearCarryOver.tx = s.tx := rfl
@[simp] theorem State.clearCarryOver_rsp (s : State) : s.clearCarryOver.rsp = s.rsp := rfl
@[simp] theorem State.clearCarryOver_busy (s : State) : s.clearCarryOver.busy = s.busy := rfl
@[simp] theorem State.clearCarryOver_port (s : State) : s.clearCarryOver.port = s.port := rfl

/-! ### `clearReceive` -/

@[simp] theorem State.clearReceive_cfg (s : State) : s.clearReceive.cfg = s.cfg := rfl
@[simp] theorem State.clearReceive_crc (s : State) : s.clearReceive.crc = s.crc := rfl
@[simp] theorem State.clearReceive_rx_buf (s : State) : s.clearReceive.rx_buf = [] := rfl
@[simp] theorem State.clearReceive_rx_esc (s : State) : s.clearReceive.rx_esc = false := rfl
@[simp] theorem State.clearReceive_rx_drop (s : State) : s.clearReceive.rx_drop = false := rfl
@[simp] theorem State.clearReceive_rx_bad (s : State) : s.clearReceive.rx_bad = false := rfl
@[simp] theorem State.clearReceive_rxq (s : State) : s.clearReceive.rxq = [] := rfl
@[simp] theorem State.clearReceive_escerr (s : State) : s.clearReceive.escerr = s.escerr := rfl
@[simp] theorem State.clearReceive_frmovf (s : State) : s.clearReceive.frmovf = s.frmovf := rfl
@[simp] theorem State.clearReceive_qovf (s : State) : s.clearReceive.qovf = s.qovf := rfl
@[simp] theorem State.clearReceive_illop (s : State) : s.clearReceive.illop = s.illop := rfl
@[simp] theorem State.clearReceive_tx (s : State) : s.clearReceive.tx = s.tx := rfl
@[simp] theorem State.clearReceive_rsp (s : State) : s.clearReceive.rsp = s.rsp := rfl
@[simp] theorem State.clearReceive_busy (s : State) : s.clearReceive.busy = s.busy := rfl
@[simp] theorem State.clearReceive_port (s : State) : s.clearReceive.port = s.port := rfl

/-! ### `clearBlock` -/

@[simp] theorem State.clearBlock_cfg (s : State) : s.clearBlock.cfg = s.cfg := rfl
@[simp] theorem State.clearBlock_crc (s : State) : s.clearBlock.crc = 0x00#8 := rfl
@[simp] theorem State.clearBlock_rx_buf (s : State) : s.clearBlock.rx_buf = [] := rfl
@[simp] theorem State.clearBlock_rx_esc (s : State) : s.clearBlock.rx_esc = false := rfl
@[simp] theorem State.clearBlock_rx_drop (s : State) : s.clearBlock.rx_drop = false := rfl
@[simp] theorem State.clearBlock_rx_bad (s : State) : s.clearBlock.rx_bad = false := rfl
@[simp] theorem State.clearBlock_rxq (s : State) : s.clearBlock.rxq = [] := rfl
@[simp] theorem State.clearBlock_escerr (s : State) : s.clearBlock.escerr = false := rfl
@[simp] theorem State.clearBlock_frmovf (s : State) : s.clearBlock.frmovf = false := rfl
@[simp] theorem State.clearBlock_qovf (s : State) : s.clearBlock.qovf = false := rfl
@[simp] theorem State.clearBlock_illop (s : State) : s.clearBlock.illop = false := rfl
@[simp] theorem State.clearBlock_tx (s : State) : s.clearBlock.tx = s.tx := rfl
@[simp] theorem State.clearBlock_rsp (s : State) : s.clearBlock.rsp = s.rsp := rfl
@[simp] theorem State.clearBlock_busy (s : State) : s.clearBlock.busy = s.busy := rfl
@[simp] theorem State.clearBlock_port (s : State) : s.clearBlock.port = s.port := rfl

/-! ### `issueNext` -/

@[simp] theorem State.issueNext_cfg (w : Word) (s : State) : (s.issueNext w).cfg = s.cfg := rfl
@[simp] theorem State.issueNext_crc (w : Word) (s : State) : (s.issueNext w).crc = s.crc := rfl
@[simp] theorem State.issueNext_rx_buf (w : Word) (s : State) : (s.issueNext w).rx_buf = s.rx_buf := rfl
@[simp] theorem State.issueNext_rx_esc (w : Word) (s : State) : (s.issueNext w).rx_esc = s.rx_esc := rfl
@[simp] theorem State.issueNext_rx_drop (w : Word) (s : State) : (s.issueNext w).rx_drop = s.rx_drop := rfl
@[simp] theorem State.issueNext_rx_bad (w : Word) (s : State) : (s.issueNext w).rx_bad = s.rx_bad := rfl
@[simp] theorem State.issueNext_rxq (w : Word) (s : State) : (s.issueNext w).rxq = s.rxq := rfl
@[simp] theorem State.issueNext_escerr (w : Word) (s : State) : (s.issueNext w).escerr = s.escerr := rfl
@[simp] theorem State.issueNext_frmovf (w : Word) (s : State) : (s.issueNext w).frmovf = s.frmovf := rfl
@[simp] theorem State.issueNext_qovf (w : Word) (s : State) : (s.issueNext w).qovf = s.qovf := rfl
@[simp] theorem State.issueNext_illop (w : Word) (s : State) : (s.issueNext w).illop = s.illop := rfl
@[simp] theorem State.issueNext_tx (w : Word) (s : State) : (s.issueNext w).tx = s.tx := rfl
@[simp] theorem State.issueNext_rsp (w : Word) (s : State) : (s.issueNext w).rsp = s.rsp := rfl
@[simp] theorem State.issueNext_busy (w : Word) (s : State) : (s.issueNext w).busy = none := rfl
@[simp] theorem State.issueNext_port (w : Word) (s : State) : (s.issueNext w).port = .issue w :: s.port := rfl

/-! ### `hardwareReset` -/

@[simp] theorem hardwareReset_cfg (s : State) : (hardwareReset s).cfg = s.cfg := rfl
@[simp] theorem hardwareReset_crc (s : State) : (hardwareReset s).crc = 0x00#8 := rfl
@[simp] theorem hardwareReset_rx_buf (s : State) : (hardwareReset s).rx_buf = [] := rfl
@[simp] theorem hardwareReset_rx_esc (s : State) : (hardwareReset s).rx_esc = false := rfl
@[simp] theorem hardwareReset_rx_drop (s : State) : (hardwareReset s).rx_drop = false := rfl
@[simp] theorem hardwareReset_rx_bad (s : State) : (hardwareReset s).rx_bad = false := rfl
@[simp] theorem hardwareReset_rxq (s : State) : (hardwareReset s).rxq = [] := rfl
@[simp] theorem hardwareReset_escerr (s : State) : (hardwareReset s).escerr = false := rfl
@[simp] theorem hardwareReset_frmovf (s : State) : (hardwareReset s).frmovf = false := rfl
@[simp] theorem hardwareReset_qovf (s : State) : (hardwareReset s).qovf = false := rfl
@[simp] theorem hardwareReset_illop (s : State) : (hardwareReset s).illop = false := rfl
@[simp] theorem hardwareReset_tx (s : State) : (hardwareReset s).tx = s.stream := rfl
@[simp] theorem hardwareReset_rsp (s : State) : (hardwareReset s).rsp = s.rsp := rfl
@[simp] theorem hardwareReset_busy (s : State) : (hardwareReset s).busy = none := rfl
@[simp] theorem hardwareReset_port (s : State) : (hardwareReset s).port = s.port := rfl

end Sys2Proof.Machine
end

