-- ==== Sys2Proof/Laws/Ops.lean ====
section
/-! SUPPORT. What the shared operations of the CRC unit, the encoder and the decoder do, said once each. -/

namespace Sys2Proof.Machine

/-! ### The CRC fold (41_crc.md R120, R121) -/

@[simp] theorem crcRounds_zero (acc b : Byte) : crcRounds 0 acc b = acc := rfl

theorem crcRounds_succ (n : Nat) (acc b : Byte) :
    crcRounds (n + 1) acc b = crcRounds n (crcRound acc b) (b >>> 1) := rfl

/-- The mask of R120 never changes the value. -/
theorem crcStep_eq_rounds (acc b : Byte) : crcStep acc b = crcRounds 8 acc b := by
  have h : (0xFF#8 : Byte) = BitVec.allOnes 8 := by decide
  rw [crcStep, h, BitVec.and_allOnes]

/-- A round sees `acc` and `b` only through what is left of their exclusive or. -/
theorem crcRound_xor_shift (acc b : Byte) : crcRound acc b ^^^ (b >>> 1) = crcRound (acc ^^^ b) 0#8 := by
  unfold crcRound
  rw [BitVec.xor_zero]
  by_cases h : (acc ^^^ b) &&& 1#8 = 1#8
  · rw [if_pos h, if_pos h, BitVec.ushiftRight_xor_distrib]
    ac_rfl
  · rw [if_neg h, if_neg h, BitVec.ushiftRight_xor_distrib]

@[simp] theorem compute_nil : compute [] = CRC_INIT := rfl

/-! ### The SLIP byte values are distinct (30_encoding.md R76) -/

@[simp] theorem slip_esc_ne_end : SLIP_ESC ≠ SLIP_END := by decide
@[simp] theorem slip_esc_end_ne_end : SLIP_ESC_END ≠ SLIP_END := by decide
@[simp] theorem slip_esc_esc_ne_end : SLIP_ESC_ESC ≠ SLIP_END := by decide
@[simp] theorem slip_esc_end_ne_esc : SLIP_ESC_END ≠ SLIP_ESC := by decide
@[simp] theorem slip_esc_esc_ne_esc : SLIP_ESC_ESC ≠ SLIP_ESC := by decide
@[simp] theorem slip_esc_esc_ne_esc_end : SLIP_ESC_ESC ≠ SLIP_ESC_END := by decide

/-! ### Wire forms (42_slip_encoder.md R140) -/

/-- The wire form is the byte itself, or ESC and one more byte that is not END. -/
theorem slipEsc_cases (b : Byte) :
    (b = SLIP_END ∧ slipEsc b = [SLIP_ESC, SLIP_ESC_END]) ∨
    (b = SLIP_ESC ∧ slipEsc b = [SLIP_ESC, SLIP_ESC_ESC]) ∨
    (b ≠ SLIP_END ∧ b ≠ SLIP_ESC ∧ slipEsc b = [b]) := by
  unfold slipEsc
  split
  · exact .inl ⟨‹_›, rfl⟩
  · split
    · exact .inr (.inl ⟨‹_›, rfl⟩)
    · exact .inr (.inr ⟨‹_›, ‹_›, rfl⟩)

@[simp] theorem slipEscAll_nil : slipEscAll [] = [] := rfl

@[simp] theorem slipEscAll_cons (b : Byte) (p : List Byte) : slipEscAll (b :: p) = slipEsc b ++ slipEscAll p := rfl

@[simp] theorem slipEscAll_append (p q : List Byte) : slipEscAll (p ++ q) = slipEscAll p ++ slipEscAll q := by
  simp [slipEscAll]

/-! ### Storing a byte (43_slip_decoder.md R162) -/

/-- Everything `rxStore` can do. -/
theorem rxStore_cases (v : Byte) (s : State) :
    (s.rx_drop = true ∧ s.rxStore v = s) ∨
    (s.rx_drop = false ∧ s.cfg.MAX_FRAME = some s.rx_buf.length ∧
      s.rxStore v = { s with rx_buf := [], rx_drop := true, frmovf := true }) ∨
    (s.rx_drop = false ∧ s.cfg.MAX_FRAME ≠ some s.rx_buf.length ∧
      s.rxStore v = { s with rx_buf := s.rx_buf ++ [v] }) := by
  unfold State.rxStore
  cases h : s.rx_drop
  · by_cases hm : s.cfg.MAX_FRAME = some s.rx_buf.length
    · exact .inr (.inl ⟨rfl, hm, by simp [hm]⟩)
    · exact .inr (.inr ⟨rfl, hm, by simp [hm]⟩)
  · exact .inl ⟨rfl, by simp⟩

/-- `rxStore` writes `rx_buf`, `rx_drop` and `frmovf` and no other field. -/
theorem rxStore_frame (v : Byte) (s : State) :
    ∃ buf drop ovf, s.rxStore v = { s with rx_buf := buf, rx_drop := drop, frmovf := ovf } := by
  obtain ⟨-, h⟩ | ⟨-, -, h⟩ | ⟨-, -, h⟩ := rxStore_cases v s <;> exact ⟨_, _, _, h⟩

@[simp] theorem rxStore_cfg (v : Byte) (s : State) : (s.rxStore v).cfg = s.cfg := by
  obtain ⟨_, _, _, h⟩ := rxStore_frame v s; rw [h]
@[simp] theorem rxStore_crc (v : Byte) (s : State) : (s.rxStore v).crc = s.crc := by
  obtain ⟨_, _, _, h⟩ := rxStore_frame v s; rw [h]
@[simp] theorem rxStore_rx_esc (v : Byte) (s : State) : (s.rxStore v).rx_esc = s.rx_esc := by
  obtain ⟨_, _, _, h⟩ := rxStore_frame v s; rw [h]
@[simp] theorem rxStore_rx_bad (v : Byte) (s : State) : (s.rxStore v).rx_bad = s.rx_bad := by
  obtain ⟨_, _, _, h⟩ := rxStore_frame v s; rw [h]
@[simp] theorem rxStore_rxq (v : Byte) (s : State) : (s.rxStore v).rxq = s.rxq := by
  obtain ⟨_, _, _, h⟩ := rxStore_frame v s; rw [h]
@[simp] theorem rxStore_escerr (v : Byte) (s : State) : (s.rxStore v).escerr = s.escerr := by
  obtain ⟨_, _, _, h⟩ := rxStore_frame v s; rw [h]
@[simp] theorem rxStore_qovf (v : Byte) (s : State) : (s.rxStore v).qovf = s.qovf := by
  obtain ⟨_, _, _, h⟩ := rxStore_frame v s; rw [h]
@[simp] theorem rxStore_illop (v : Byte) (s : State) : (s.rxStore v).illop = s.illop := by
  obtain ⟨_, _, _, h⟩ := rxStore_frame v s; rw [h]
@[simp] theorem rxStore_tx (v : Byte) (s : State) : (s.rxStore v).tx = s.tx := by
  obtain ⟨_, _, _, h⟩ := rxStore_frame v s; rw [h]
@[simp] theorem rxStore_rsp (v : Byte) (s : State) : (s.rxStore v).rsp = s.rsp := by
  obtain ⟨_, _, _, h⟩ := rxStore_frame v s; rw [h]
@[simp] theorem rxStore_busy (v : Byte) (s : State) : (s.rxStore v).busy = s.busy := by
  obtain ⟨_, _, _, h⟩ := rxStore_frame v s; rw [h]
@[simp] theorem rxStore_port (v : Byte) (s : State) : (s.rxStore v).port = s.port := by
  obtain ⟨_, _, _, h⟩ := rxStore_frame v s; rw [h]

/-- `frmovf` is set by the byte that overflows a frame. -/
theorem rxStore_frmovf (v : Byte) (s : State) : (s.rxStore v).frmovf = true ↔
    s.frmovf = true ∨ (s.rx_drop = false ∧ s.cfg.MAX_FRAME = some s.rx_buf.length) := by
  obtain ⟨hd, h⟩ | ⟨hd, hm, h⟩ | ⟨hd, hm, h⟩ := rxStore_cases v s <;> rw [h] <;> simp [*]

/-- `rxStore` does not read the logs or the host's side. -/
theorem rxStore_with_host (v : Byte) (s : State) (tx : List Byte) (rsp : List Response)
    (busy : Option InProgress) (port : List HostMove) :
    { s with tx := tx, rsp := rsp, busy := busy, port := port }.rxStore v =
      { s.rxStore v with tx := tx, rsp := rsp, busy := busy, port := port } := by
  by_cases hd : s.rx_drop = true <;> by_cases hm : s.cfg.MAX_FRAME = some s.rx_buf.length <;>
    simp [State.rxStore, hd, hm]

/-! ### Closing a frame (R163) -/

/-- Everything `queueFrame` can do. -/
theorem queueFrame_cases (s : State) :
    ((s.rx_drop = true ∨ s.rx_buf = []) ∧ s.queueFrame = s) ∨
    (s.rx_drop = false ∧ s.rx_buf ≠ [] ∧ s.cfg.QUEUE_DEPTH = some s.rxq.length ∧
      s.queueFrame = { s with qovf := true }) ∨
    (s.rx_drop = false ∧ s.rx_buf ≠ [] ∧ s.cfg.QUEUE_DEPTH ≠ some s.rxq.length ∧
      s.queueFrame = { s with rxq := s.rxq ++ [⟨s.rx_buf, s.rx_bad⟩] }) := by
  unfold State.queueFrame
  cases hd : s.rx_drop
  · by_cases hb : s.rx_buf = []
    · exact .inl ⟨.inr hb, by simp [hb]⟩
    · by_cases hq : s.cfg.QUEUE_DEPTH = some s.rxq.length
      · exact .inr (.inl ⟨rfl, hb, hq, by simp [hb, hq]⟩)
      · exact .inr (.inr ⟨rfl, hb, hq, by simp [hb, hq]⟩)
  · exact .inl ⟨.inl rfl, by simp⟩

/-- `finishFrame` writes the queue, `qovf` and the carry-over state, which it clears. -/
theorem finishFrame_frame (s : State) :
    ∃ q ovf, s.finishFrame = { s with
      rx_buf := [], rx_esc := false, rx_drop := false, rx_bad := false, rxq := q, qovf := ovf } := by
  obtain ⟨-, h⟩ | ⟨-, -, -, h⟩ | ⟨-, -, -, h⟩ := queueFrame_cases s <;>
    exact ⟨_, _, by rw [State.finishFrame, h]; rfl⟩

@[simp] theorem finishFrame_cfg (s : State) : s.finishFrame.cfg = s.cfg := by
  obtain ⟨_, _, h⟩ := finishFrame_frame s; rw [h]
@[simp] theorem finishFrame_crc (s : State) : s.finishFrame.crc = s.crc := by
  obtain ⟨_, _, h⟩ := finishFrame_frame s; rw [h]
@[simp] theorem finishFrame_rx_buf (s : State) : s.finishFrame.rx_buf = [] := by
  obtain ⟨_, _, h⟩ := finishFrame_frame s; rw [h]
@[simp] theorem finishFrame_rx_esc (s : State) : s.finishFrame.rx_esc = false := by
  obtain ⟨_, _, h⟩ := finishFrame_frame s; rw [h]
@[simp] theorem finishFrame_rx_drop (s : State) : s.finishFrame.rx_drop = false := by
  obtain ⟨_, _, h⟩ := finishFrame_frame s; rw [h]
@[simp] theorem finishFrame_rx_bad (s : State) : s.finishFrame.rx_bad = false := by
  obtain ⟨_, _, h⟩ := finishFrame_frame s; rw [h]
@[simp] theorem finishFrame_escerr (s : State) : s.finishFrame.escerr = s.escerr := by
  obtain ⟨_, _, h⟩ := finishFrame_frame s; rw [h]
@[simp] theorem finishFrame_frmovf (s : State) : s.finishFrame.frmovf = s.frmovf := by
  obtain ⟨_, _, h⟩ := finishFrame_frame s; rw [h]
@[simp] theorem finishFrame_illop (s : State) : s.finishFrame.illop = s.illop := by
  obtain ⟨_, _, h⟩ := finishFrame_frame s; rw [h]
@[simp] theorem finishFrame_tx (s : State) : s.finishFrame.tx = s.tx := by
  obtain ⟨_, _, h⟩ := finishFrame_frame s; rw [h]
@[simp] theorem finishFrame_rsp (s : State) : s.finishFrame.rsp = s.rsp := by
  obtain ⟨_, _, h⟩ := finishFrame_frame s; rw [h]
@[simp] theorem finishFrame_busy (s : State) : s.finishFrame.busy = s.busy := by
  obtain ⟨_, _, h⟩ := finishFrame_frame s; rw [h]
@[simp] theorem finishFrame_port (s : State) : s.finishFrame.port = s.port := by
  obtain ⟨_, _, h⟩ := finishFrame_frame s; rw [h]

/-- `qovf` is set by the END of a frame that finds the queue full. -/
theorem finishFrame_qovf (s : State) : s.finishFrame.qovf = true ↔
    s.qovf = true ∨ (s.rx_drop = false ∧ s.rx_buf ≠ [] ∧ s.cfg.QUEUE_DEPTH = some s.rxq.length) := by
  rw [State.finishFrame, State.clearCarryOver_qovf]
  obtain ⟨hd | hd, h⟩ | ⟨hd, hb, hq, h⟩ | ⟨hd, hb, hq, h⟩ := queueFrame_cases s <;> rw [h] <;> simp [*]

/-- `finishFrame` does not read the logs or the host's side. -/
theorem finishFrame_with_host (s : State) (tx : List Byte) (rsp : List Response)
    (busy : Option InProgress) (port : List HostMove) :
    { s with tx := tx, rsp := rsp, busy := busy, port := port }.finishFrame =
      { s.finishFrame with tx := tx, rsp := rsp, busy := busy, port := port } := by
  by_cases hd : s.rx_drop = true <;> by_cases hb : s.rx_buf = [] <;>
    by_cases hq : s.cfg.QUEUE_DEPTH = some s.rxq.length <;>
    simp [State.finishFrame, State.queueFrame, State.clearCarryOver, hd, hb, hq]

/-! ### The decoder step (R161) -/

/-- Everything `decStep` can do: close the frame, store a byte, or note an ESC, after an invalid escape was noted or
not. -/
theorem decStep_cases (b : Byte) (s : State) :
    (b = SLIP_END ∧ s.rx_esc = true ∧ s.decStep b = { s with rx_esc := false }.noteBadEscape.finishFrame) ∨
    (b = SLIP_END ∧ s.rx_esc = false ∧ s.decStep b = s.finishFrame) ∨
    (b = SLIP_ESC ∧ s.rx_esc = false ∧ s.decStep b = { s with rx_esc := true }) ∨
    (b ≠ SLIP_END ∧ s.rx_esc = true ∧ b ≠ SLIP_ESC_END ∧ b ≠ SLIP_ESC_ESC ∧
      s.decStep b = { s with rx_esc := false }.noteBadEscape.rxStore b) ∨
    (b ≠ SLIP_END ∧ s.rx_esc = true ∧ ∃ v, s.decStep b = { s with rx_esc := false }.rxStore v) ∨
    (b ≠ SLIP_END ∧ b ≠ SLIP_ESC ∧ s.rx_esc = false ∧ s.decStep b = s.rxStore b) := by
  unfold State.decStep State.decEscaped State.decPlain
  cases s.rx_esc
  · by_cases he : b = SLIP_END
    · exact .inr (.inl ⟨he, rfl, by simp [he]⟩)
    · by_cases hs : b = SLIP_ESC
      · exact .inr (.inr (.inl ⟨hs, rfl, by subst hs; simp [he]⟩))
      · exact .inr (.inr (.inr (.inr (.inr ⟨he, hs, rfl, by simp [he, hs]⟩))))
  · by_cases he : b = SLIP_END
    · exact .inl ⟨he, rfl, by simp [he]⟩
    · by_cases h1 : b = SLIP_ESC_END
      · subst h1; exact .inr (.inr (.inr (.inr (.inl ⟨he, rfl, SLIP_END, by simp [he]⟩))))
      · by_cases h2 : b = SLIP_ESC_ESC
        · subst h2; exact .inr (.inr (.inr (.inr (.inl ⟨he, rfl, SLIP_ESC, by simp [he, h1]⟩))))
        · exact .inr (.inr (.inr (.inl ⟨he, rfl, h1, h2, by simp [he, h1, h2]⟩)))

/-- The decoder step writes the carry-over state, the queue and the decoder's three sticky bits, and no other field. -/
theorem decStep_frame (b : Byte) (s : State) :
    ∃ buf esc drop bad q e f o, s.decStep b = { s with
      rx_buf := buf, rx_esc := esc, rx_drop := drop, rx_bad := bad, rxq := q, escerr := e, frmovf := f, qovf := o } := by
  obtain ⟨-, -, h⟩ | ⟨-, -, h⟩ | ⟨-, -, h⟩ | ⟨-, -, -, -, h⟩ | ⟨-, -, v, h⟩ | ⟨-, -, -, h⟩ := decStep_cases b s
  · obtain ⟨q, o, hf⟩ := finishFrame_frame { s with rx_esc := false }.noteBadEscape
    exact ⟨_, _, _, _, _, _, _, _, h.trans hf⟩
  · obtain ⟨q, o, hf⟩ := finishFrame_frame s
    exact ⟨_, _, _, _, _, _, _, _, h.trans hf⟩
  · exact ⟨_, _, _, _, _, _, _, _, h⟩
  · obtain ⟨buf, drop, ovf, hf⟩ := rxStore_frame b { s with rx_esc := false }.noteBadEscape
    exact ⟨_, _, _, _, _, _, _, _, h.trans hf⟩
  · obtain ⟨buf, drop, ovf, hf⟩ := rxStore_frame v { s with rx_esc := false }
    exact ⟨_, _, _, _, _, _, _, _, h.trans hf⟩
  · obtain ⟨buf, drop, ovf, hf⟩ := rxStore_frame b s
    exact ⟨_, _, _, _, _, _, _, _, h.trans hf⟩

@[simp] theorem decStep_cfg (b : Byte) (s : State) : (s.decStep b).cfg = s.cfg := by
  obtain ⟨_, _, _, _, _, _, _, _, h⟩ := decStep_frame b s; rw [h]
@[simp] theorem decStep_crc (b : Byte) (s : State) : (s.decStep b).crc = s.crc := by
  obtain ⟨_, _, _, _, _, _, _, _, h⟩ := decStep_frame b s; rw [h]
@[simp] theorem decStep_illop (b : Byte) (s : State) : (s.decStep b).illop = s.illop := by
  obtain ⟨_, _, _, _, _, _, _, _, h⟩ := decStep_frame b s; rw [h]
@[simp] theorem decStep_tx (b : Byte) (s : State) : (s.decStep b).tx = s.tx := by
  obtain ⟨_, _, _, _, _, _, _, _, h⟩ := decStep_frame b s; rw [h]
@[simp] theorem decStep_rsp (b : Byte) (s : State) : (s.decStep b).rsp = s.rsp := by
  obtain ⟨_, _, _, _, _, _, _, _, h⟩ := decStep_frame b s; rw [h]
@[simp] theorem decStep_busy (b : Byte) (s : State) : (s.decStep b).busy = s.busy := by
  obtain ⟨_, _, _, _, _, _, _, _, h⟩ := decStep_frame b s; rw [h]
@[simp] theorem decStep_port (b : Byte) (s : State) : (s.decStep b).port = s.port := by
  obtain ⟨_, _, _, _, _, _, _, _, h⟩ := decStep_frame b s; rw [h]

/-- The decoder step does not read the logs or the host's side. -/
theorem decStep_with_host (b : Byte) (s : State) (tx : List Byte) (rsp : List Response)
    (busy : Option InProgress) (port : List HostMove) :
    { s with tx := tx, rsp := rsp, busy := busy, port := port }.decStep b =
      { s.decStep b with tx := tx, rsp := rsp, busy := busy, port := port } := by
  have store (v : Byte) (s : State) := rxStore_with_host v s tx rsp busy port
  have finish (s : State) := finishFrame_with_host s tx rsp busy port
  unfold State.decStep State.decEscaped State.decPlain State.noteBadEscape
  by_cases hx : s.rx_esc = true
  · by_cases h0 : b = SLIP_END
    · simpa [hx, h0] using finish { s with rx_esc := false, escerr := true, rx_bad := true }
    · by_cases h1 : b = SLIP_ESC_END
      · simpa [hx, h0, h1] using store SLIP_END { s with rx_esc := false }
      · by_cases h2 : b = SLIP_ESC_ESC
        · simpa [hx, h0, h1, h2] using store SLIP_ESC { s with rx_esc := false }
        · simpa [hx, h0, h1, h2] using store b { s with rx_esc := false, escerr := true, rx_bad := true }
  · by_cases h0 : b = SLIP_END
    · simpa [hx, h0] using finish s
    · by_cases h1 : b = SLIP_ESC
      · simp [hx, h1]
      · simpa [hx, h0, h1] using store b s

end Sys2Proof.Machine
end

