-- ==== Sys2Proof/Laws/Exec.lean ====
section
/-! SUPPORT. The state an operation leaves, as a function: the form in which the meanings and runs of them are cited. -/

namespace Sys2Proof.Machine

/-- The state after an operation. -/
def after : Instr → State → State
  | .nop, s => s.respond .none
  | .statRd, s => s.respond (.status s.statusByte s.rxq.length)
  | .statClr d, s => (s.clearSticky d).respond .none
  | .reset, s => s.clearBlock.respond .none
  | .crcClr, s => (s.setCrc CRC_INIT).respond .none
  | .crcByte d, s => (s.setCrc (crcStep s.crc d)).respond .none
  | .crcRd, s => s.respond (.byte s.crc)
  | .encBegin, s => (s.emitAll (frameLead s.cfg.LEADING_END)).respond .none
  | .encByte d, s => (s.emitAll (slipEsc d)).respond .none
  | .encCrcb d, s => ((s.setCrc (crcStep s.crc d)).emitAll (slipEsc d)).respond .none
  | .encCrc, s => (s.emitAll (slipEsc s.crc)).respond .none
  | .encEnd, s => (s.emitAll [SLIP_END]).respond .none
  | .decByte d, s => (s.decStep d).respond .none
  | .decPop, s => { s with rxq := s.rxq.tail }.respond (popResponse s.rxq)
  | .decClr, s => s.clearReceive.respond .none
  | .reserved _, s => s.noteIllegal.respond .none

/-- Every meaning answers the state `after` gives. -/
theorem exec_eq_after (i : Instr) (s : State) : exec i s = .next (after i s) := by cases i <;> rfl

/-- If an operation answers a state, it is the one `after` gives. -/
theorem after_of_exec {i : Instr} {s t : State} (h : exec i s = .next t) : t = after i s := by
  rw [exec_eq_after] at h; exact (Host.Outcome.next.inj h).symm

/-- No operation writes the parameters or the host's side. -/
@[simp] theorem after_cfg (i : Instr) (s : State) : (after i s).cfg = s.cfg := by
  cases i with
  | decByte d => obtain ⟨_, _, _, _, _, _, _, _, h⟩ := decStep_frame d s; simp [after, h]
  | _ => rfl

@[inherit_doc after_cfg, simp] theorem after_port (i : Instr) (s : State) : (after i s).port = s.port := by
  cases i with
  | decByte d => obtain ⟨_, _, _, _, _, _, _, _, h⟩ := decStep_frame d s; simp [after, h]
  | _ => rfl

@[inherit_doc after_cfg, simp] theorem after_busy (i : Instr) (s : State) : (after i s).busy = s.busy := by
  cases i with
  | decByte d => obtain ⟨_, _, _, _, _, _, _, _, h⟩ := decStep_frame d s; simp [after, h]
  | _ => rfl

/-- An operation appends its `txBytes` to the transmit stream. -/
theorem after_tx (i : Instr) (s : State) : (after i s).tx = s.tx ++ txBytes i s := by
  cases i with
  | decByte d => obtain ⟨_, _, _, _, _, _, _, _, h⟩ := decStep_frame d s; simp [after, txBytes, h]
  | _ => simp [after, txBytes]

/-- No operation reads the host's side: running with other moves to come commutes. -/
theorem after_with_port (i : Instr) (s : State) (ms : List HostMove) :
    after i { s with port := ms } = { after i s with port := ms } := by
  cases i with
  | decByte d => simp only [after]; rw [decStep_with_host d s s.tx s.rsp s.busy ms]; simp [State.respond]
  | _ => rfl

/-! ### Runs of operations -/

/-- The state after a list of operations. -/
def afterAll : List Instr → State → State
  | [], s => s
  | i :: is, s => afterAll is (after i s)

@[simp] theorem afterAll_nil (s : State) : afterAll [] s = s := rfl

@[simp] theorem afterAll_cons (i : Instr) (is : List Instr) (s : State) :
    afterAll (i :: is) s = afterAll is (after i s) := rfl

@[simp] theorem afterAll_append (is js : List Instr) (s : State) :
    afterAll (is ++ js) s = afterAll js (afterAll is s) := by
  induction is generalizing s with
  | nil => rfl
  | cons i is ih => exact ih (after i s)

/-- A run answers the state `afterAll` gives. -/
theorem runInstrs_eq_afterAll (is : List Instr) (s : State) : runInstrs is s = .next (afterAll is s) := by
  induction is generalizing s with
  | nil => rfl
  | cons i is ih => simp [runInstrs, exec_eq_after, ih]

/-- No run writes the parameters. -/
@[simp] theorem afterAll_cfg (is : List Instr) (s : State) : (afterAll is s).cfg = s.cfg := by
  induction is generalizing s with
  | nil => rfl
  | cons i is ih => simp [ih]

end Sys2Proof.Machine
end

