-- ==== Sys2Proof/Laws/PerInstr.lean ====
section
/-! SUPPORT. Facts about each operation as syntax, one lemma per constructor. -/

namespace Sys2Proof.Laws.EncodedFields

/-- The two fields of the encoded word (30_encoding.md R70), and the data byte of an operation without operand
(R75). -/
def Statement (i : Instr) : Prop :=
  opField (encode i) = opcode i ∧ dField (encode i) = dataByte i ∧
    (WellFormed i → takesOperand (opcode i) = false → dataByte i = 0x00#8)

theorem nop : Statement .nop :=
  ⟨opField_append _ _, dField_append _ _, fun _ _ => rfl⟩

theorem statRd : Statement .statRd :=
  ⟨opField_append _ _, dField_append _ _, fun _ _ => rfl⟩

theorem statClr (d : Byte) : Statement (.statClr d) :=
  ⟨opField_append _ _, dField_append _ _, fun _ h => nomatch (show true = false from h)⟩

theorem reset : Statement .reset :=
  ⟨opField_append _ _, dField_append _ _, fun _ _ => rfl⟩

theorem crcClr : Statement .crcClr :=
  ⟨opField_append _ _, dField_append _ _, fun _ _ => rfl⟩

theorem crcByte (d : Byte) : Statement (.crcByte d) :=
  ⟨opField_append _ _, dField_append _ _, fun _ h => nomatch (show true = false from h)⟩

theorem crcRd : Statement .crcRd :=
  ⟨opField_append _ _, dField_append _ _, fun _ _ => rfl⟩

theorem encBegin : Statement .encBegin :=
  ⟨opField_append _ _, dField_append _ _, fun _ _ => rfl⟩

theorem encByte (d : Byte) : Statement (.encByte d) :=
  ⟨opField_append _ _, dField_append _ _, fun _ h => nomatch (show true = false from h)⟩

theorem encCrcb (d : Byte) : Statement (.encCrcb d) :=
  ⟨opField_append _ _, dField_append _ _, fun _ h => nomatch (show true = false from h)⟩

theorem encCrc : Statement .encCrc :=
  ⟨opField_append _ _, dField_append _ _, fun _ _ => rfl⟩

theorem encEnd : Statement .encEnd :=
  ⟨opField_append _ _, dField_append _ _, fun _ _ => rfl⟩

theorem decByte (d : Byte) : Statement (.decByte d) :=
  ⟨opField_append _ _, dField_append _ _, fun _ h => nomatch (show true = false from h)⟩

theorem decPop : Statement .decPop :=
  ⟨opField_append _ _, dField_append _ _, fun _ _ => rfl⟩

theorem decClr : Statement .decClr :=
  ⟨opField_append _ _, dField_append _ _, fun _ _ => rfl⟩

theorem reserved (op : Byte) : Statement (.reserved op) :=
  ⟨opField_append _ _, dField_append _ _, fun _ _ => rfl⟩

end Sys2Proof.Laws.EncodedFields
end

