-- ==== Sys2Proof/Laws/Step.lean ====
section
/-! SUPPORT. Everything a step can do, said once, and runs of steps. -/

namespace Sys2Proof.Machine

/-- With a legal configuration a step serves the host. -/
theorem step_of_legal {s : State} (h : s.cfg.legal = true) : step s = stepHost s := by simp [step, h]

/-- If a step answers a state, the configuration is legal and one of the host's moves was served, or none could be. -/
theorem step_next_cases {s t : State} (h : step s = .next t) :
    s.cfg.legal = true ∧
    ((s.busy = none ∧ s.port = [] ∧ t = s) ∨
     (∃ w rest, s.busy = none ∧ s.port = .issue w :: rest ∧ t = after (decode w) { s with port := rest }) ∨
     (∃ w rest, s.busy = none ∧ s.port = .start w :: rest ∧ t = { s with port := rest, busy := some ⟨w, 0⟩ }) ∨
     (∃ rest, s.busy = none ∧ s.port = .accept :: rest ∧ t = { s with port := rest }) ∨
     (∃ rest, s.port = .reset :: rest ∧ t = hardwareReset { s with port := rest }) ∨
     (∃ op rest, s.busy = some op ∧ s.port = .accept :: rest ∧ waiting op s = true ∧
       t = { s with port := rest, busy := some { op with accepted := op.accepted + 1 } }) ∨
     (∃ op, s.busy = some op ∧ waiting op s = true ∧ t = s) ∨
     (∃ op, s.busy = some op ∧ waiting op s = false ∧ t = after (decode op.word) { s with busy := none })) := by
  unfold step at h
  split at h
  case isFalse => cases h
  case isTrue hl =>
    refine ⟨hl, ?_⟩
    unfold stepHost at h
    split at h
    case h_1 hb =>
      unfold stepIdle at h
      split at h
      case h_1 hp => cases h; exact .inl ⟨hb, hp, rfl⟩
      case h_2 w rest hp => exact .inr (.inl ⟨w, rest, hb, hp, after_of_exec h⟩)
      case h_3 w rest hp => cases h; exact .inr (.inr (.inl ⟨w, rest, hb, hp, rfl⟩))
      case h_4 rest hp => cases h; exact .inr (.inr (.inr (.inl ⟨rest, hb, hp, rfl⟩)))
      case h_5 rest hp => cases h; exact .inr (.inr (.inr (.inr (.inl ⟨rest, hp, rfl⟩))))
    case h_2 op hb =>
      have wait : ∀ u, (if waiting op s then Host.Outcome.next u else
          exec (decode op.word) { s with busy := none }) = .next t →
          (waiting op s = true ∧ t = u) ∨
          (waiting op s = false ∧ t = after (decode op.word) { s with busy := none }) := by
        intro u hu
        cases hw : waiting op s
        · exact .inr ⟨rfl, after_of_exec (by simpa [hw] using hu)⟩
        · exact .inl ⟨rfl, by rw [hw, if_pos rfl] at hu; exact (Host.Outcome.next.inj hu).symm⟩
      unfold stepBusy at h
      split at h
      case h_1 rest hp => cases h; exact .inr (.inr (.inr (.inr (.inl ⟨rest, hp, rfl⟩))))
      case h_2 rest hp =>
        obtain ⟨hw, ht⟩ | ⟨hw, ht⟩ := wait _ h
        · exact .inr (.inr (.inr (.inr (.inr (.inl ⟨op, rest, hb, hp, hw, ht⟩)))))
        · exact .inr (.inr (.inr (.inr (.inr (.inr (.inr ⟨op, hb, hw, ht⟩))))))
      case h_3 hr ha =>
        obtain ⟨hw, ht⟩ | ⟨hw, ht⟩ := wait _ h
        · exact .inr (.inr (.inr (.inr (.inr (.inr (.inl ⟨op, hb, hw, ht⟩))))))
        · exact .inr (.inr (.inr (.inr (.inr (.inr (.inr ⟨op, hb, hw, ht⟩))))))

/-! ### Runs of steps -/

/-- A run of any machine goes on from the state its first step answers. -/
theorem run_succ_of_next (M : Host.Core) (n : Nat) {s t : M.State} (h : M.step s = .next t) :
    M.run (n + 1) s = M.run n t := by rw [Host.Core.run, h]

/-- A run of any machine stops at a refusal. -/
theorem run_succ_of_refused (M : Host.Core) (n : Nat) {s : M.State} {r : M.Refusal} (h : M.step s = .refused r) :
    M.run (n + 1) s = .refused r := by rw [Host.Core.run, h]

@[simp] theorem core_run_zero (s : State) : core.run 0 s = .next s := rfl

/-- A run goes on from the state its first step answers. -/
theorem core_run_next {s t : State} (n : Nat) (h : step s = .next t) : core.run (n + 1) s = core.run n t :=
  run_succ_of_next core n h

/-- A run of two counts is the second from where the first ends. -/
theorem core_run_add {s t : State} (m n : Nat) (h : core.run m s = .next t) : core.run (m + n) s = core.run n t := by
  induction m generalizing s with
  | zero => cases h; simp
  | succ m ih =>
    rw [Nat.add_right_comm]
    cases hs : step s with
    | next u => rw [core_run_next _ hs] at h ⊢; exact ih h
    | fault r => exact nomatch r
    | refused r => cases h.symm.trans (run_succ_of_refused core m hs)

end Sys2Proof.Machine
end

