-- ==== Sys2Proof/Tests/Slice0.lean ====
section
/-! SUPPORT. The model's own tests. Expected results are the worked vectors of 95_test_vectors.md, named beside each test, or
words written out from the encodings of 30_encoding.md. The second half holds, for each statement with hypotheses, a
state and operands that meet them. -/

namespace Sys2Proof.Tests

open Sys2Proof.Machine Sys2Proof.Safety

/-- The state of a next outcome. -/
def stateOf : Host.Outcome State Fault Refusal → Option State
  | .next s => some s
  | .fault _ => none
  | .refused _ => none

/-- An operation's outcome, seen through one view of the state. -/
def see {α : Type} (i : Instr) (s : State) (view : State → α) : Option α := (stateOf (exec i s)).map view

/-- A block with the source's parameters that has received some bytes. -/
def fed (bs : List Byte) : State := bs.foldl (fun s b => s.decStep b) State.reset

/-- The configuration of program P4 and of V-DEC-14 to V-DEC-18. -/
def bounded : Params := ⟨some 2, some 1, false⟩

/-- A bounded block that has received some bytes. -/
def fedBounded (bs : List Byte) : State := bs.foldl (fun s b => s.decStep b) (State.resetWith bounded)

/-! ### Well-formedness: the one check there is, at the edges of R73's ranges -/

theorem test_wellFormed_refuses_listed_opcodes :
    ∀ op ∈ [0x00#8, 0x01#8, 0x02#8, 0x03#8, 0x10#8, 0x11#8, 0x12#8, 0x20#8, 0x21#8, 0x22#8, 0x23#8, 0x24#8, 0x30#8, 0x31#8, 0x32#8],
      ¬ WellFormed (.reserved op) := by decide

theorem test_wellFormed_accepts_range_ends :
    ∀ op ∈ [0x04#8, 0x0F#8, 0x13#8, 0x1F#8, 0x25#8, 0x2F#8, 0x33#8, 0xFF#8], WellFormed (.reserved op) := by decide

theorem test_wellFormed_accepts_operands : WellFormed (.statClr 0x87) ∧ WellFormed (.decByte 0xC0) := by decide

/-! ### Decoding: words written out bit by bit, opcode (R72) then data byte -/

theorem test_decode_control :
    decode 0b00000000_00000000#16 = .nop ∧ decode 0b00000001_00000000#16 = .statRd ∧
    decode 0b00000010_01111000#16 = .statClr 0x78 ∧ decode 0b00000011_00000000#16 = .reset := by decide

theorem test_decode_crc :
    decode 0b00010000_00000000#16 = .crcClr ∧ decode 0b00010001_01000010#16 = .crcByte 0x42 ∧
    decode 0b00010010_00000000#16 = .crcRd := by decide

theorem test_decode_encoder :
    decode 0b00100000_00000000#16 = .encBegin ∧ decode 0b00100001_11000111#16 = .encByte 0xC7 ∧
    decode 0b00100010_10010101#16 = .encCrcb 0x95 ∧ decode 0b00100011_00000000#16 = .encCrc ∧
    decode 0b00100100_00000000#16 = .encEnd := by decide

theorem test_decode_decoder :
    decode 0b00110000_11011011#16 = .decByte 0xDB ∧ decode 0b00110001_00000000#16 = .decPop ∧
    decode 0b00110010_00000000#16 = .decClr := by decide

theorem test_decode_reserved :
    decode 0b00000101_10101010#16 = .reserved 0x05 ∧ decode 0b01000000_00000000#16 = .reserved 0x40 ∧
    decode 0b11111111_11111111#16 = .reserved 0xFF := by decide

theorem test_encode_words :
    encode (.crcByte 0x42) = 0x1142#16 ∧ encode .encEnd = 0x2400#16 ∧ encode (.reserved 0x40) = 0x4000#16 := by decide

theorem test_decodeTableWord :
    decodeTableWord 16 0x0278 = some (.statClr 0x78) ∧ decodeTableWord 8 0x42 = some .nop ∧
    decodeTableWord 24 0x1142 = none := by decide

/-! ### Assembler (R83) -/

theorem test_assemble_operand :
    assembleLine ['C', 'R', 'C', '_', 'B', 'Y', 'T', 'E', ' ', '0', 'x', '4', '2'] = .word 0x1142 := by decide

theorem test_assemble_decimal_and_comment :
    assembleLine ['E', 'N', 'C', '_', 'B', 'Y', 'T', 'E', ' ', '1', '9', '9', ' ', ';', 'x'] = .word 0x21C7 ∧
    assembleLine [';', ' ', 'x'] = .empty := by decide

theorem test_digit_edges :
    ['/', ':', '@', 'G', '`', 'g'].map hexDigit = [none, none, none, none, none, none] ∧
    ['0', '9', 'A', 'F', 'a', 'f'].map hexDigit = [some 0, some 9, some 10, some 15, some 10, some 15] ∧
    [decDigit '9', decDigit 'A'] = [some 9, none] ∧ printByte 0x9F = ['0', 'x', '9', 'F'] := by decide

theorem test_assemble_errors :
    assembleLine ['E', 'N', 'C', '_', 'E', 'N', 'D', ' ', '1'] = .error .operandExtra ∧
    assembleLine ['C', 'R', 'C', '_', 'B', 'Y', 'T', 'E'] = .error .operandMissing ∧
    assembleLine ['C', 'R', 'C', '_', 'B', 'Y', 'T', 'E', ' ', '2', '5', '6'] = .error .operandMalformed := by decide

/-! ### Control operations -/

/-- V-CTL-8. -/
theorem test_nop : stateOf (exec (decode 0x00FF) State.reset) = some { State.reset with rsp := [.none] } := by decide

/-- V-CTL-1. -/
theorem test_statRd_reset : see .statRd State.reset (·.rsp) = some [.status 0x00 0] := by decide

/-- V-CTL-2. -/
theorem test_statRd_flags :
    see .statRd { fed [0xDB, 0x41, 0xC0] with illop := true } (·.rsp) = some [.status 0x49 1] := by decide

/-- V-CTL-3. -/
theorem test_statClr_selects :
    see (.statClr 0x08) { fed [0xDB, 0x41, 0xC0] with illop := true } (·.statusByte) = some 0x41 := by decide

/-- V-CTL-4. -/
theorem test_statClr_ignores_read_only :
    see (.statClr 0x87) { fed [0x41, 0xC0] with illop := true } (·.statusByte) = some 0x41 := by decide

/-- V-CTL-6: RESET discards the frame being received, and retracts no transmitted byte. -/
theorem test_reset :
    see .reset { fed [0xC1, 0x05] with tx := [0x41], crc := 0xFA } (fun t => (t.statusByte, t.crc, t.tx, t.rsp)) =
      some (0x00, 0x00, [0x41], [.none]) := by decide

/-- V-CTL-7. -/
theorem test_reserved : stateOf (exec (decode 0xFFFF) State.reset) =
    some { State.reset with illop := true, rsp := [.none] } := by decide

/-- V-CTL-2: a reserved opcode beside a pending payload. -/
theorem test_reserved_sets_bit_six :
    see (decode 0x05AA) (fed [0xDB, 0x41, 0xC0]) (·.statusByte) = some 0x49 := by decide

/-! ### CRC unit -/

/-- V-CRC-6, row 1. -/
theorem test_crcClr : see .crcClr { State.reset with crc := 0x67 } (·.crc) = some 0x00 := by decide

/-- V-CRC-6, row 2. -/
theorem test_crcByte : see (.crcByte 0x42) State.reset (·.crc) = some 0xFA := by decide

/-- V-CRC-6, row 4. -/
theorem test_crcByte_self : see (.crcByte 0x5E) { State.reset with crc := 0x5E } (·.crc) = some 0x00 := by decide

/-- V-CRC-6, row 6: the data field is ignored. -/
theorem test_crcRd : see (decode 0x12FF) { State.reset with crc := 0x35 } (fun t => (t.crc, t.rsp)) =
    some (0x35, [.byte 0x35]) := by decide

/-- V-CRC-2, the accumulator after rounds 0, 1 and 4. -/
theorem test_crcRound :
    crcRound 0x00 0x42 = 0x00 ∧ crcRound 0x00 0x21 = 0x8C ∧ crcRound 0x23 0x04 = 0x9D := by decide

/-- V-CRC-3, rows 1, 5 and 13. -/
theorem test_compute : compute [] = 0x00 ∧ compute [0x80] = 0x8C ∧ compute [0x50] = 0xDB := by decide

/-- V-CRC-4, the check string. -/
theorem test_compute_check_string :
    compute [0x31, 0x32, 0x33, 0x34, 0x35, 0x36, 0x37, 0x38, 0x39] = 0xA1 := by
  simp [compute, CRC_INIT, crcStep, crcRounds, crcRound, CRC_FEEDBACK]

/-! ### SLIP encoder -/

/-- V-ENC-14. -/
theorem test_encBegin : see .encBegin State.reset (·.tx) = some [] := by decide

/-- V-ENC-15. -/
theorem test_encBegin_leading :
    see .encBegin (State.resetWith ⟨none, none, true⟩) (·.tx) = some [0xC0] := by decide

/-- V-ENC-17: the CRC is not folded. -/
theorem test_encByte : see (.encByte 0x41) { State.reset with crc := 0x67 } (fun t => (t.tx, t.crc)) =
    some ([0x41], 0x67) := by decide

/-- V-ENC-8, second byte. -/
theorem test_encByte_end : see (.encByte 0xC0) { State.reset with tx := [0xDB, 0xDD] } (·.tx) =
    some [0xDB, 0xDD, 0xDB, 0xDC] := by decide

/-- V-ENC-13: the unescaped byte is folded. -/
theorem test_encCrcb : see (.encCrcb 0xC0) State.reset (fun t => (t.tx, t.crc)) =
    some ([0xDB, 0xDC], 0xCA) := by decide

/-- V-ENC-10. -/
theorem test_encCrc_end : see .encCrc { State.reset with crc := 0xC0 } (fun t => (t.tx, t.crc)) =
    some ([0xDB, 0xDC], 0xC0) := by decide

/-- V-ENC-11. -/
theorem test_encCrc_esc : see .encCrc { State.reset with crc := 0xDB } (·.tx) = some [0xDB, 0xDD] := by decide

/-- V-ENC-16. -/
theorem test_encEnd : see .encEnd { State.reset with crc := 0x67 } (fun t => (t.tx, t.crc)) =
    some ([0xC0], 0x67) := by decide

/-! ### SLIP decoder -/

/-- V-DEC-6, third byte: the invalid escape keeps its byte. -/
theorem test_decByte_invalid_escape :
    see (.decByte 0x41) (fed [0x84, 0xDB]) (fun t => (t.rx_buf, t.rx_esc, t.rx_bad, t.escerr)) =
      some ([0x84, 0x41], false, true, true) := by decide

/-- V-DEC-18, last byte: the newest payload is rejected. -/
theorem test_decByte_queue_full :
    see (.decByte 0xC0) (fedBounded [0xC1, 0x01, 0xC0, 0xC3, 0x02]) (fun t => (t.rxq, t.statusByte)) =
      some ([⟨[0xC1, 0x01], false⟩], 0x21) := by decide

/-- V-DEC-23. -/
theorem test_decPop :
    see .decPop (fed [0x84, 0xDB, 0x41, 0x02, 0xC0]) (fun t => (t.rsp, t.statusByte)) =
      some ([.frame true [0x84, 0x41, 0x02] true .indicateState 0x41], 0x08) := by decide

/-- V-DEC-22. -/
theorem test_decPop_empty : see .decPop State.reset (·.rsp) = some [.frame false [] false .none 0x00] := by decide

/-- V-DEC-25. -/
theorem test_decClr :
    see .decClr (fedBounded [0xC1, 0x01, 0xC0, 0xC3, 0x02, 0xC0]) (fun t => (t.rxq, t.statusByte)) =
      some ([], 0x20) := by decide

/-- V-CLS, five rows. -/
theorem test_classify :
    classify [0x99, 0x05] = (.unknown, 0x00) ∧ classify [0xC1] = (.confirmStart, 0x00) ∧
    classify [0xC3, 0x05, 0x06] = (.confirmInfo, 0x05) ∧ classify [0x82, 0x0A] = (.requestLine, 0x0A) ∧
    classify [0xC4, 0xFF] = (.confirmTest, 0xFF) := by decide

/-- R80's codes. -/
theorem test_tok : Token.indicateState.tok = 6 ∧ Token.none.sourceCode = -1 ∧ Token.requestLine.sourceCode = 0x82 := by
  decide

/-! ### Steps -/

/-- V-CRC-6, row 2, through the host's port. -/
theorem test_step_runs_fetch_word :
    (stateOf (step (State.reset.withFetchWord 16 0x1142))).map (fun t => (t.crc, t.rsp, t.port)) =
      some (0xFA, [.none], []) := by decide

/-- R230: the reset input after one of two bytes; the accepted byte stays on the stream. -/
theorem test_step_reset_input :
    (stateOf (step { State.reset with crc := 0x35, busy := some ⟨0x21C0, 1⟩, port := [.reset] })).map
      (fun t => (t.crc, t.tx, t.busy)) = some (0x00, [0xDB], none) := by decide

/-- U6. -/
theorem test_step_refuses_zero_bound :
    step (State.resetWith ⟨some 0, none, false⟩) = .refused .illegalConfiguration := rfl

/-! ### Witnesses: states and operands that meet the hypotheses of each statement that has some -/

theorem witness_DecodeEncodeRoundTrip :
    WellFormed (.crcByte 0x42) ∧ WellFormed (.reserved 0x04) ∧ WellFormed (.reserved 0xFF) := by decide

theorem witness_OpcodeMapDecodes :
    ∀ op ∈ [0x04#8, 0x33#8, 0xFF#8], op ∉ [0x00#8, 0x01#8, 0x02#8, 0x03#8, 0x10#8, 0x11#8, 0x12#8, 0x20#8, 0x21#8, 0x22#8,
      0x23#8, 0x24#8, 0x30#8, 0x31#8, 0x32#8] := by decide

theorem witness_ReservedWordsSetIllopOnly :
    ∀ op ∈ [0x04#8, 0x0F#8, 0x13#8, 0x1F#8, 0x25#8, 0x2F#8, 0x33#8, 0xFF#8],
      (0x04 ≤ op.toNat ∧ op.toNat ≤ 0x0F) ∨ (0x13 ≤ op.toNat ∧ op.toNat ≤ 0x1F) ∨
        (0x25 ≤ op.toNat ∧ op.toNat ≤ 0x2F) ∨ (0x33 ≤ op.toNat) := by decide

theorem witness_DataFieldIgnoredWithoutOperand :
    (∀ op ∈ [0x12#8, 0x05#8], op ≠ 0x02#8 ∧ op ≠ 0x11#8 ∧ op ≠ 0x21#8 ∧ op ≠ 0x22#8 ∧ op ≠ 0x30#8) ∧
    WellFormed .crcRd ∧ takesOperand (opcode .crcRd) = false ∧
    WellFormed (.reserved 0x05) ∧ takesOperand (opcode (.reserved 0x05)) = false := by decide

theorem witness_AssemblerReadsStatements :
    WellFormed (.decByte 0xDB) ∧ ∀ op, Instr.decByte 0xDB ≠ .reserved op := ⟨rfl, nofun⟩

theorem witness_AssemblerOperandErrors :
    (['D', 'E', 'C', '_', 'P', 'O', 'P'], 0x31#8) ∈ mnemonicTable ∧ takesOperand 0x31#8 = false ∧
    (['D', 'E', 'C', '_', 'B', 'Y', 'T', 'E'], 0x30#8) ∈ mnemonicTable ∧ takesOperand 0x30#8 = true := by decide

theorem witness_StepRunsTheIssuedWord :
    Ready { State.reset with port := [.issue 0x21C0, .reset] } ∧
    ({ State.reset with port := [.issue 0x21C0, .reset] }).port = .issue 0x21C0 :: [.reset] ∧
    (State.resetWith bounded).cfg.legal = true := ⟨⟨rfl, rfl⟩, rfl, rfl⟩

theorem witness_StepStopsOnlyOnIllegalConfiguration :
    (State.resetWith ⟨none, some 0, true⟩).cfg.QUEUE_DEPTH = some 0 ∧
    ¬(State.reset.cfg.MAX_FRAME = some 0 ∨ State.reset.cfg.QUEUE_DEPTH = some 0) ∧
    ¬((State.resetWith ⟨some 1, some 1, true⟩).cfg.MAX_FRAME = some 0 ∨
      (State.resetWith ⟨some 1, some 1, true⟩).cfg.QUEUE_DEPTH = some 0) := by decide

theorem witness_IdleBlockHoldsItsState : Ready (fed [0xC1, 0x05]) ∧ (fed [0xC1, 0x05]).port = [] :=
  ⟨⟨rfl, rfl⟩, rfl⟩

theorem witness_IssuedWordsRunInOrder : Ready (fedBounded [0xC1, 0xC0]) := ⟨rfl, rfl⟩

theorem witness_DelayedAcceptanceSameEffect :
    Ready { State.reset with crc := 0xC0 } ∧ (txBytes (decode 0x2300) { State.reset with crc := 0xC0 }).length = 2 ∧
    ([] : List HostMove).head? ≠ some .reset ∧ [HostMove.issue 0x0100].head? ≠ some .reset :=
  ⟨⟨rfl, rfl⟩, rfl, by decide, by decide⟩

theorem witness_UnacceptedByteHangs :
    Ready State.reset ∧ 0 < (txBytes (decode 0x21DB) State.reset).length ∧
    1 < (txBytes (decode 0x21DB) State.reset).length ∧
    (∀ mv, ([] : List HostMove).head? = some mv → relieves mv = false) ∧
    (∀ mv, [HostMove.issue 0x0300].head? = some mv → relieves mv = false) :=
  ⟨⟨rfl, rfl⟩, by decide, by decide, nofun, fun _ h => by cases h; rfl⟩

theorem witness_HardwareResetAtAnyPoint :
    Ready (fed [0xDB]) ∧ 0 ≤ (txBytes (decode 0x22C0) (fed [0xDB])).length ∧
    2 ≤ (txBytes (decode 0x22C0) (fed [0xDB])).length ∧ 0 ≤ (txBytes (decode 0x3100) (fed [0xDB])).length :=
  ⟨⟨rfl, rfl⟩, by decide, by decide, by decide⟩

theorem witness_PromptHostIsServed :
    Ready { State.reset with port := [.issue 0x2242, .accept, .reset] } ∧
    ∀ m ∈ ({ State.reset with port := [.issue 0x2242, .accept, .reset] }).port, prompt m = true :=
  ⟨⟨rfl, rfl⟩, by decide⟩

theorem witness_StreamOnlyGrows :
    step { State.reset with busy := some ⟨0x21C0, 1⟩, port := [.accept] } =
      .next { State.reset with busy := some ⟨0x21C0, 2⟩ } := rfl

theorem witness_StickyBitsClearedOnlyOnRequest :
    (∃ t, exec (.statClr 0x78)
        { State.reset with escerr := true, frmovf := true, qovf := true, illop := true } = .next t ∧
      t.escerr = false ∧ t.frmovf = false ∧ t.qovf = false ∧ t.illop = false) ∧
    (∃ t, exec .reset { State.reset with escerr := true, frmovf := true, qovf := true, illop := true } = .next t ∧
      t.escerr = false ∧ t.frmovf = false ∧ t.qovf = false ∧ t.illop = false) :=
  ⟨⟨_, rfl, rfl, rfl, rfl, rfl⟩, ⟨_, rfl, rfl, rfl, rfl, rfl⟩⟩

theorem witness_StickyBitsSetExactlyByTheirCause :
    (∃ t, (fed [0xDB]).escerr = false ∧ exec (.decByte 0xC0) (fed [0xDB]) = .next t ∧ t.escerr = true) ∧
    (∃ t, (fedBounded [0x01, 0x02]).frmovf = false ∧
      exec (.decByte 0x03) (fedBounded [0x01, 0x02]) = .next t ∧ t.frmovf = true) ∧
    (∃ t, (fedBounded [0x01, 0xC0, 0x02]).qovf = false ∧
      exec (.decByte 0xC0) (fedBounded [0x01, 0xC0, 0x02]) = .next t ∧ t.qovf = true) ∧
    (∃ t, State.reset.illop = false ∧ exec (.reserved 0x33) State.reset = .next t ∧ t.illop = true) :=
  ⟨⟨_, rfl, rfl, rfl⟩, ⟨_, rfl, rfl, rfl⟩, ⟨_, rfl, rfl, rfl⟩, ⟨_, rfl, rfl, rfl⟩⟩

theorem witness_FieldsWrittenOnlyByTheirOperations :
    (∃ t, exec (.encCrcb 0x42) State.reset = .next t ∧ t.crc ≠ State.reset.crc) ∧
    (∃ t, exec (.decByte 0xDB) State.reset = .next t ∧ ¬(t.rx_buf = State.reset.rx_buf ∧
      t.rx_esc = State.reset.rx_esc ∧ t.rx_drop = State.reset.rx_drop ∧ t.rx_bad = State.reset.rx_bad)) ∧
    (∃ t, exec .decPop (fed [0x01, 0xC0]) = .next t ∧ t.rxq ≠ (fed [0x01, 0xC0]).rxq) ∧
    (∃ t, exec (.statClr 0x08) (fed [0xDB, 0x41]) = .next t ∧ ¬(t.escerr = (fed [0xDB, 0x41]).escerr ∧
      t.frmovf = (fed [0xDB, 0x41]).frmovf ∧ t.qovf = (fed [0xDB, 0x41]).qovf)) ∧
    (∃ t, exec (.reserved 0xFF) State.reset = .next t ∧ t.illop ≠ State.reset.illop) :=
  ⟨⟨_, rfl, by decide⟩, ⟨_, rfl, by decide⟩, ⟨_, rfl, by decide⟩, ⟨_, rfl, by decide⟩, ⟨_, rfl, by decide⟩⟩

theorem witness_ReadsRepeatAndPopsDoNot :
    (fed [0x01, 0xC0, 0xC1, 0x05, 0xC0]).rxq = ⟨[0x01], false⟩ :: ⟨[0xC1, 0x05], false⟩ :: [] := rfl

theorem witness_StateIsFunctionOfOperationsSinceReset :
    (fed [0xC1, 0xC0]).cfg = State.reset.cfg ∧ fed [0xC1, 0xC0] ≠ State.reset := by decide

theorem witness_OneByteChangesChecksum : (0x00#8) ≠ 0x80#8 := by decide

theorem witness_RunningAccumulatorIsCompute :
    ∀ i ∈ [Instr.crcByte 0x42, .encCrcb 0x05, .decByte 0xC0, .statRd], i ≠ .crcClr ∧ i ≠ .reset := by decide

theorem witness_WireFormOfPayloadByte : (0xDC#8) ≠ 0xC0#8 ∧ (0xDC#8) ≠ 0xDB#8 := by decide

theorem witness_FrameEqualsFunction :
    ∀ i ∈ [Instr.encByte 0xC0, .crcByte 0xDB, .decByte 0x01, .encCrcb 0xDB], i ≠ .encBegin ∧ i ≠ .encCrc ∧ i ≠ .encEnd := by
  decide

theorem witness_DecByteFollowsDecoderStep :
    (fed [0xDB]).rx_esc = true ∧ (fed [0x01]).rx_esc = false ∧
    (0x41#8) ≠ SLIP_END ∧ (0x41#8) ≠ SLIP_ESC_END ∧ (0x41#8) ≠ SLIP_ESC_ESC ∧ (0x41#8) ≠ SLIP_ESC ∧
    SLIP_ESC ≠ SLIP_END ∧ SLIP_ESC ≠ SLIP_ESC_END ∧ SLIP_ESC ≠ SLIP_ESC_ESC := by decide

theorem witness_StoreByteCases :
    (fedBounded [0x01, 0x02, 0x03]).rx_drop = true ∧
    ((fedBounded [0x01, 0x02]).rx_drop = false ∧
      (fedBounded [0x01, 0x02]).cfg.MAX_FRAME = some (fedBounded [0x01, 0x02]).rx_buf.length) ∧
    ((fedBounded [0x01]).rx_drop = false ∧
      (fedBounded [0x01]).cfg.MAX_FRAME ≠ some (fedBounded [0x01]).rx_buf.length) := by decide

theorem witness_FinishFrameCases :
    (fedBounded [0x01, 0x02, 0x03]).rx_drop = true ∧ State.reset.rx_buf = [] ∧
    ((fedBounded [0x01, 0xC0, 0x02]).rx_drop = false ∧ (fedBounded [0x01, 0xC0, 0x02]).rx_buf ≠ [] ∧
      (fedBounded [0x01, 0xC0, 0x02]).cfg.QUEUE_DEPTH = some (fedBounded [0x01, 0xC0, 0x02]).rxq.length) ∧
    ((fedBounded [0x01]).rx_drop = false ∧ (fedBounded [0x01]).rx_buf ≠ [] ∧
      (fedBounded [0x01]).cfg.QUEUE_DEPTH ≠ some (fedBounded [0x01]).rxq.length) := by decide

theorem witness_DecPopResult :
    State.reset.rxq = [] ∧ (fed [0x84, 0xDB, 0x41, 0xC0]).rxq = ⟨[0x84, 0x41], true⟩ :: [] := by decide

theorem witness_QueueDrainsInOrder :
    0 ≤ (fed [0x01, 0xC0, 0xC1, 0x05, 0xC0]).rxq.length ∧ 2 ≤ (fed [0x01, 0xC0, 0xC1, 0x05, 0xC0]).rxq.length := by decide

theorem witness_ClassifyTable : (0xC2#8) ∉ [0xC1#8, 0xC3#8, 0x82#8, 0xC4#8, 0x84#8] := by decide

/-- A frame being discarded and an empty queue; a full queue with a marked payload. Both meet the invariants. -/
theorem witness_NoneTokenOnlyFromEmptyQueue :
    (Inv (fedBounded [0x01, 0x02, 0x03]) ∧ (fedBounded [0x01, 0x02, 0x03]).rxq = []) ∧
    (Inv (fedBounded [0x82, 0xDB, 0x41, 0xC0]) ∧ (fedBounded [0x82, 0xDB, 0x41, 0xC0]).rxq ≠ []) := by
  refine ⟨⟨⟨fun n h => ?_, by decide, fun n h => ?_, by decide, by decide⟩, rfl⟩,
    ⟨⟨fun n h => ?_, by decide, fun n h => ?_, by decide, by decide⟩, by decide⟩⟩ <;>
  first
    | (cases (show some 2 = some n from h); decide)
    | (cases (show some 1 = some n from h); decide)

theorem witness_SimultaneousConditions :
    ((fed [0xDB]).rx_esc = true ∧ (fed [0xDB]).rx_drop = false ∧ (fed [0xDB]).rx_buf = []) ∧
    ((fedBounded [0x01, 0xC0, 0x02, 0xDB]).rx_esc = true ∧ (fedBounded [0x01, 0xC0, 0x02, 0xDB]).rx_drop = false ∧
      (fedBounded [0x01, 0xC0, 0x02, 0xDB]).rx_buf ≠ [] ∧ (fedBounded [0x01, 0xC0, 0x02, 0xDB]).cfg.QUEUE_DEPTH =
        some (fedBounded [0x01, 0xC0, 0x02, 0xDB]).rxq.length) ∧
    ((fedBounded [0x01, 0x02, 0xDB]).rx_esc = true ∧ (fedBounded [0x01, 0x02, 0xDB]).rx_drop = false ∧
      (fedBounded [0x01, 0x02, 0xDB]).cfg.MAX_FRAME = some (fedBounded [0x01, 0x02, 0xDB]).rx_buf.length ∧
      (0x41#8) ≠ SLIP_END ∧ (0x41#8) ≠ SLIP_ESC_END ∧ (0x41#8) ≠ SLIP_ESC_ESC) := by decide

/-- Between frames, and inside one that is being discarded. -/
theorem witness_RxpartClearMeansBetweenFrames :
    (Inv State.reset ∧ State.reset.statusByte.getLsbD 1 = false) ∧
    (Inv (fedBounded [0x01, 0x02, 0x03]) ∧ (fedBounded [0x01, 0x02, 0x03]).statusByte.getLsbD 1 = true) :=
  ⟨⟨⟨nofun, nofun, nofun, nofun, nofun⟩, rfl⟩, witness_NoneTokenOnlyFromEmptyQueue.1.1, rfl⟩

/-- Payloads that just fit, an empty one among them, into a queue they just fill. -/
theorem witness_FramesRoundTrip :
    Inv (State.resetWith bounded) ∧ (State.resetWith bounded).rxpart = false ∧
    (∀ n, (State.resetWith bounded).cfg.MAX_FRAME = some n → ∀ p ∈ [[0xC0#8, 0xDB#8], []], p.length ≤ n) ∧
    (∀ n, (State.resetWith bounded).cfg.QUEUE_DEPTH = some n →
      (State.resetWith bounded).rxq.length + ([[0xC0#8, 0xDB#8], []].filter (· ≠ [])).length ≤ n) ∧
    (State.resetWith bounded).rxq = [] ∧ [0xC0#8, 0xDB#8] ≠ [] ∧ (State.resetWith bounded).cfg.legal = true := by
  refine ⟨⟨fun n h => ?_, nofun, fun n h => ?_, nofun, nofun⟩, rfl, fun n h => ?_, fun n h => ?_, rfl, by decide, rfl⟩ <;>
  first
    | (cases (show some 2 = some n from h); decide)
    | (cases (show some 1 = some n from h); decide)

theorem witness_InterleavingDoesNotChangePayloads :
    (fed [0x84]).cfg.QUEUE_DEPTH = none ∧
    ∀ i ∈ [Instr.decByte 0xDB, .decPop, .encEnd, .decByte 0xDC, .crcClr, .decByte 0xC0], i ≠ .reset ∧ i ≠ .decClr := by
  decide

/-- A step from a state that meets the invariants and is about to fill the queue. -/
theorem witness_InvariantKeptByEveryStep :
    Inv { State.resetWith bounded with rx_buf := [0x01, 0x02], port := [.issue 0x30C0] } ∧
    ∃ t, step { State.resetWith bounded with rx_buf := [0x01, 0x02], port := [.issue 0x30C0] } = .next t ∧
      t.rxq = [⟨[0x01, 0x02], false⟩] := by
  refine ⟨⟨fun n h => ?_, nofun, fun n h => ?_, nofun, nofun⟩, _, rfl, rfl⟩ <;>
  first
    | (cases (show some 2 = some n from h); decide)
    | (cases (show some 1 = some n from h); decide)

end Sys2Proof.Tests
end

section
/-! PROOFS. A step has one way to answer no next state, the refusal of an illegal configuration (00_scope.md R6, U6). -/

namespace Sys2Proof.Machine

/-! ### Legality of a configuration, as R6 prints it -/

theorem boundLegal_iff (b : Option Nat) : Params.boundLegal b = true ↔ b ≠ some 0 := by
  cases b with
  | none => simp [Params.boundLegal]
  | some n => simp [Params.boundLegal, Nat.one_le_iff_ne_zero]

theorem legal_iff (c : Params) : c.legal = true ↔ ¬(c.MAX_FRAME = some 0 ∨ c.QUEUE_DEPTH = some 0) := by
  rw [Params.legal, Bool.and_eq_true, boundLegal_iff, boundLegal_iff, not_or]

/-! ### With a legal configuration every move of the host is served by a next state -/

theorem step_of_not_legal {s : State} (h : ¬s.cfg.legal = true) : step s = .refused .illegalConfiguration := if_neg h

theorem stepIdle_answers_next (s : State) : ∃ t, stepIdle s = .next t := by
  unfold stepIdle
  split
  case h_1 => exact ⟨_, rfl⟩
  case h_2 w rest _ => exact ⟨_, exec_eq_after (decode w) _⟩
  case h_3 => exact ⟨_, rfl⟩
  case h_4 => exact ⟨_, rfl⟩
  case h_5 => exact ⟨_, rfl⟩

/-- An operation in progress waits in the state `u` or completes with its whole effect (R33, R35). -/
theorem wait_or_complete_answers_next (op : InProgress) (s u : State) :
    ∃ t, (if waiting op s then .next u else exec (decode op.word) { s with busy := none }) =
      Host.Outcome.next (φ := Fault) (ρ := Refusal) t := by
  split
  case isTrue => exact ⟨u, rfl⟩
  case isFalse => exact ⟨_, exec_eq_after (decode op.word) _⟩

theorem stepBusy_answers_next (op : InProgress) (s : State) : ∃ t, stepBusy op s = .next t := by
  unfold stepBusy
  split
  case h_1 => exact ⟨_, rfl⟩
  case h_2 => exact wait_or_complete_answers_next op s _
  case h_3 => exact wait_or_complete_answers_next op s s

theorem stepHost_answers_next (s : State) : ∃ t, stepHost s = .next t := by
  unfold stepHost
  split
  case h_1 => exact stepIdle_answers_next s
  case h_2 op _ => exact stepBusy_answers_next op s

theorem step_answers_next_of_legal {s : State} (h : s.cfg.legal = true) : ∃ t, step s = .next t := by
  rw [step_of_legal h]
  exact stepHost_answers_next s

/-- Settles O11: the bounds decide legality, and a step refuses exactly the illegal configurations. -/
theorem stepStopsOnlyOnIllegalConfiguration : Obligations.StepStopsOnlyOnIllegalConfiguration := by
  intro s
  split
  case isTrue hzero => exact step_of_not_legal fun hlegal => (legal_iff s.cfg).mp hlegal hzero
  case isFalse hpos => exact step_answers_next_of_legal ((legal_iff s.cfg).mpr hpos)

end Sys2Proof.Machine
end

section
/-! PROOFS. The transmit stream as the host sees it only grows (10_state.md R34, R35). -/

namespace Sys2Proof.Machine

/-! ### The bytes an operation emits -/

/-- What an operation emits depends on no field of the host's side. -/
@[simp] theorem txBytes_with_host (i : Instr) (s : State) (busy : Option InProgress) (port : List HostMove) :
    txBytes i { s with busy := busy, port := port } = txBytes i s := by cases i <;> rfl

theorem frameLead_length_le_two (lead : Bool) : (frameLead lead).length ≤ 2 := by cases lead <;> decide

theorem slipEsc_length_le_two (b : Byte) : (slipEsc b).length ≤ 2 := by
  obtain ⟨-, h⟩ | ⟨-, h⟩ | ⟨-, -, h⟩ := slipEsc_cases b <;> simp [h]

/-- No operation emits more than two bytes (20_memory.md R57). -/
theorem txBytes_length_le_two (i : Instr) (s : State) : (txBytes i s).length ≤ 2 := by
  cases i with
  | encBegin => exact frameLead_length_le_two _
  | encByte d => exact slipEsc_length_le_two d
  | encCrcb d => exact slipEsc_length_le_two d
  | encCrc => exact slipEsc_length_le_two _
  | encEnd => exact Nat.one_le_ofNat
  | _ => exact Nat.zero_le 2

/-! ### The stream the host has seen -/

theorem stream_of_idle {s : State} (h : s.busy = none) : s.stream = s.tx := by
  simp [State.stream, State.acceptedBytes, h]

theorem stream_of_busy {s : State} {op : InProgress} (h : s.busy = some op) :
    s.stream = s.tx ++ (txBytes (decode op.word) s).take op.accepted := by
  simp [State.stream, State.acceptedBytes, acceptedOf, h]

theorem waiting_iff (op : InProgress) (s : State) :
    waiting op s = true ↔ op.accepted < (txBytes (decode op.word) s).length := decide_eq_true_iff

theorem waiting_eq_false_iff (op : InProgress) (s : State) :
    waiting op s = false ↔ (txBytes (decode op.word) s).length ≤ op.accepted := by
  rw [waiting, decide_eq_false_iff_not, Nat.not_lt]

/-- Reading the host's next move changes nothing the host has seen. -/
@[simp] theorem stream_with_port (s : State) (port : List HostMove) : { s with port := port }.stream = s.stream := by
  cases h : s.busy with
  | none => rw [stream_of_idle h, stream_of_idle rfl]
  | some op => rw [stream_of_busy h, stream_of_busy rfl, txBytes_with_host]

/-- An operation that runs with none in progress puts its bytes on the stream. -/
theorem stream_after_of_idle (i : Instr) {s : State} (h : s.busy = none) :
    (after i s).stream = s.stream ++ txBytes i s := by
  rw [stream_of_idle h, stream_of_idle (by simpa using h), after_tx]

/-- An acceptance moves one byte of the operation in progress onto the stream (R35). -/
theorem stream_accept {s : State} {op : InProgress} (h : s.busy = some op) (hw : waiting op s = true)
    (port : List HostMove) :
    ∃ b, { s with port := port, busy := some { op with accepted := op.accepted + 1 } }.stream = s.stream ++ [b] := by
  have hlt := (waiting_iff op s).mp hw
  refine ⟨(txBytes (decode op.word) s)[op.accepted], ?_⟩
  rw [stream_of_busy h, stream_of_busy rfl, txBytes_with_host, List.append_assoc, List.take_concat_get' _ _ hlt]

/-- Completing an operation whose bytes are all accepted adds none of them again (R33, R35). -/
theorem stream_complete {s : State} {op : InProgress} (h : s.busy = some op) (hw : waiting op s = false) :
    (after (decode op.word) { s with busy := none }).stream = s.stream := by
  have hle := (waiting_eq_false_iff op s).mp hw
  rw [stream_after_of_idle _ rfl, stream_of_idle rfl, stream_of_busy h, txBytes_with_host, List.take_of_length_le hle]

/-- Settles O18, by the cases of a step: an acceptance adds one byte, an issued word at most two, every other step none. -/
theorem streamOnlyGrows : Obligations.StreamOnlyGrows := by
  intro s t hstep
  have unchanged (h : t.stream = s.stream) : ∃ bs, t.stream = s.stream ++ bs ∧ bs.length ≤ 2 :=
    ⟨[], by simp [h], Nat.zero_le 2⟩
  obtain ⟨-, ⟨-, -, rfl⟩ | ⟨w, rest, hb, -, rfl⟩ | ⟨w, rest, hb, -, rfl⟩ | ⟨rest, -, -, rfl⟩ | ⟨rest, -, rfl⟩ |
    ⟨op, rest, hb, -, hw, rfl⟩ | ⟨op, -, -, rfl⟩ | ⟨op, hb, hw, rfl⟩⟩ := step_next_cases hstep
  · exact unchanged rfl
  · exact ⟨txBytes (decode w) s, by rw [stream_after_of_idle _ (by exact hb)]; simp, txBytes_length_le_two _ s⟩
  · exact unchanged (by rw [stream_of_busy rfl, stream_of_idle hb]; simp)
  · exact unchanged (stream_with_port s rest)
  · exact unchanged (by rw [stream_of_idle (hardwareReset_busy _), hardwareReset_tx, stream_with_port])
  · obtain ⟨b, hb'⟩ := stream_accept hb hw rest
    exact ⟨[b], hb', Nat.one_le_ofNat⟩
  · exact unchanged rfl
  · exact unchanged (stream_complete hb hw)

end Sys2Proof.Machine
end

section
/-! PROOFS. Every step keeps the invariants of 10_state.md R23 and the fifth beside them. -/

namespace Sys2Proof.Safety

open Sys2Proof.Machine

/-! ### What the invariants read -/

/-- The invariants read the parameters and the receive side, less the pending escape. -/
theorem Inv.of_same_receive {s t : State} (h : Inv s) (hcfg : t.cfg = s.cfg) (hbuf : t.rx_buf = s.rx_buf)
    (hdrop : t.rx_drop = s.rx_drop) (hbad : t.rx_bad = s.rx_bad) (hq : t.rxq = s.rxq) : Inv t where
  bufferBounded := by rw [hcfg, hbuf]; exact h.bufferBounded
  dropEmpty := by rw [hdrop, hbuf]; exact h.dropEmpty
  queueBounded := by rw [hcfg, hq]; exact h.queueBounded
  entriesNonempty := by rw [hq]; exact h.entriesNonempty
  badInsideFrame := by rw [hbad, hbuf, hdrop]; exact h.badInsideFrame

/-- An empty receive side meets the invariants under every configuration. -/
theorem Inv.of_receive_empty {s : State} (hbuf : s.rx_buf = []) (hbad : s.rx_bad = false) (hq : s.rxq = []) :
    Inv s where
  bufferBounded := by simp [hbuf]
  dropEmpty _ := hbuf
  queueBounded := by simp [hq]
  entriesNonempty := by simp [hq]
  badInsideFrame := by simp [hbad]

/-- The four invariants R23 prints, which do not read the mark. The decoder sets the mark before it stores the byte, so
between the two only these hold. -/
def MarklessInv (s : State) : Prop := Inv { s with rx_bad := false }

/-- The mark is read by the fifth invariant alone. -/
theorem inv_iff (s : State) : Inv s ↔ MarklessInv s ∧ (s.rx_bad = true → s.rx_buf ≠ [] ∨ s.rx_drop = true) :=
  ⟨fun h => ⟨⟨h.bufferBounded, h.dropEmpty, h.queueBounded, h.entriesNonempty, nofun⟩, h.badInsideFrame⟩,
    fun ⟨h, hbad⟩ => ⟨h.bufferBounded, h.dropEmpty, h.queueBounded, h.entriesNonempty, hbad⟩⟩

theorem Inv.markless {s : State} (h : Inv s) : MarklessInv s := ((inv_iff s).mp h).1

/-- Neither the pending escape nor the note of a bad one is read by the four. -/
theorem MarklessInv.with_rx_esc {s : State} (h : MarklessInv s) (esc : Bool) : MarklessInv { s with rx_esc := esc } :=
  Inv.of_same_receive h rfl rfl rfl rfl rfl

@[inherit_doc MarklessInv.with_rx_esc]
theorem MarklessInv.noteBadEscape {s : State} (h : MarklessInv s) : MarklessInv s.noteBadEscape :=
  Inv.of_same_receive h rfl rfl rfl rfl rfl

/-! ### The decoder's operations -/

/-- A bound that is not reached yet leaves room for one more. -/
theorem succ_le_of_bound_ne {bound : Option Nat} {len : Nat} (hle : ∀ n, bound = some n → len ≤ n)
    (hne : bound ≠ some len) : ∀ n, bound = some n → len + 1 ≤ n := by
  intro n hn
  have hlen : len ≠ n := by rintro rfl; exact hne hn
  exact Nat.lt_of_le_of_ne (hle n hn) hlen

/-- After a stored byte the decoder is inside a frame, so a mark is in its place there. -/
theorem rxStore_inside_frame (v : Byte) (s : State) : (s.rxStore v).rx_buf ≠ [] ∨ (s.rxStore v).rx_drop = true := by
  obtain ⟨hd, h⟩ | ⟨-, -, h⟩ | ⟨-, -, h⟩ := rxStore_cases v s <;> rw [h]
  · exact .inr hd
  · exact .inr rfl
  · exact .inl (List.append_ne_nil_of_right_ne_nil _ (List.cons_ne_nil v []))

theorem MarklessInv.rxStore {s : State} (h : MarklessInv s) (v : Byte) : MarklessInv (s.rxStore v) := by
  obtain ⟨-, hs⟩ | ⟨-, -, hs⟩ | ⟨hd, hm, hs⟩ := rxStore_cases v s <;> rw [hs]
  · exact h
  · exact ⟨fun n _ => Nat.zero_le n, fun _ => rfl, h.queueBounded, h.entriesNonempty, nofun⟩
  · refine ⟨?_, fun hdrop => absurd hdrop (by simp [hd]), h.queueBounded, h.entriesNonempty, nofun⟩
    simpa using succ_le_of_bound_ne h.bufferBounded hm

theorem MarklessInv.inv_rxStore {s : State} (h : MarklessInv s) (v : Byte) : Inv (s.rxStore v) :=
  (inv_iff _).mpr ⟨h.rxStore v, fun _ => rxStore_inside_frame v s⟩

theorem MarklessInv.queueFrame {s : State} (h : MarklessInv s) : MarklessInv s.queueFrame := by
  obtain ⟨-, hs⟩ | ⟨-, -, -, hs⟩ | ⟨-, hb, hq, hs⟩ := queueFrame_cases s <;> rw [hs]
  · exact h
  · exact Inv.of_same_receive h rfl rfl rfl rfl rfl
  · refine ⟨h.bufferBounded, h.dropEmpty, ?_, ?_, nofun⟩
    · simpa using succ_le_of_bound_ne h.queueBounded hq
    · intro e he
      obtain he | he := List.mem_append.mp he
      · exact h.entriesNonempty e he
      · rw [List.mem_singleton.mp he]
        exact List.length_pos_iff.mpr hb

theorem MarklessInv.inv_finishFrame {s : State} (h : MarklessInv s) : Inv s.finishFrame :=
  ⟨fun n _ => Nat.zero_le n, fun _ => rfl, h.queueFrame.queueBounded, h.queueFrame.entriesNonempty, nofun⟩

theorem Inv.decStep {s : State} (h : Inv s) (b : Byte) : Inv (s.decStep b) := by
  obtain ⟨-, -, hs⟩ | ⟨-, -, hs⟩ | ⟨-, -, hs⟩ | ⟨-, -, -, -, hs⟩ | ⟨-, -, v, hs⟩ | ⟨-, -, -, hs⟩ :=
    decStep_cases b s <;> rw [hs]
  · exact (h.markless.with_rx_esc false).noteBadEscape.inv_finishFrame
  · exact h.markless.inv_finishFrame
  · exact h.of_same_receive rfl rfl rfl rfl rfl
  · exact (h.markless.with_rx_esc false).noteBadEscape.inv_rxStore b
  · exact (h.markless.with_rx_esc false).inv_rxStore v
  · exact h.markless.inv_rxStore b

/-- What leaves the queue at its head breaks no invariant. -/
theorem Inv.with_rxq_tail {s : State} (h : Inv s) : Inv { s with rxq := s.rxq.tail } where
  bufferBounded := h.bufferBounded
  dropEmpty := h.dropEmpty
  queueBounded n hn := by simpa using (Nat.sub_le _ 1).trans (h.queueBounded n hn)
  entriesNonempty e he := h.entriesNonempty e (List.mem_of_mem_tail he)
  badInsideFrame := h.badInsideFrame

/-! ### Operations and steps -/

theorem Inv.respond {s : State} (h : Inv s) (r : Response) : Inv (s.respond r) :=
  h.of_same_receive rfl rfl rfl rfl rfl

/-- Every operation keeps the invariants. -/
theorem Inv.after {s : State} (h : Inv s) (i : Instr) : Inv (after i s) := by
  cases i with
  | reset => exact .of_receive_empty rfl rfl rfl
  | decByte d => exact (h.decStep d).respond _
  | decPop => exact h.with_rxq_tail.respond _
  | decClr => exact .of_receive_empty rfl rfl rfl
  | _ => exact h.of_same_receive rfl rfl rfl rfl rfl

/-- The host's side is no part of the invariants. -/
theorem Inv.with_host {s : State} (h : Inv s) (busy : Option InProgress) (port : List HostMove) :
    Inv { s with busy := busy, port := port } := h.of_same_receive rfl rfl rfl rfl rfl

end Sys2Proof.Safety

namespace Sys2Proof.Machine

open Sys2Proof.Safety

/-- Settles O60, by the cases of a step: it runs an operation, resets the block, or touches the host's side alone. -/
theorem invariantKeptByEveryStep : Obligations.InvariantKeptByEveryStep := by
  intro s t hinv hstep
  obtain ⟨-, ⟨-, -, rfl⟩ | ⟨w, rest, -, -, rfl⟩ | ⟨w, rest, -, -, rfl⟩ | ⟨rest, -, -, rfl⟩ | ⟨rest, -, rfl⟩ |
    ⟨op, rest, -, -, -, rfl⟩ | ⟨op, -, -, rfl⟩ | ⟨op, -, -, rfl⟩⟩ := step_next_cases hstep
  · exact hinv
  · exact (hinv.with_host _ rest).after (decode w)
  · exact hinv.with_host _ rest
  · exact hinv.with_host _ rest
  · exact .of_receive_empty rfl rfl rfl
  · exact hinv.with_host _ rest
  · exact hinv
  · exact (hinv.with_host none _).after (decode op.word)

/-- Settles O59: the receive side is empty after reset. -/
theorem invariantHoldsAtReset : Obligations.InvariantHoldsAtReset := fun _ => .of_receive_empty rfl rfl rfl

end Sys2Proof.Machine
end

section
/-! PROOFS. What the host's moves do in a ready block, one after the other (10_state.md R31 to R35). -/

namespace Sys2Proof.Machine

open Sys2Proof.Safety

/-! ### One move -/

theorem ready_with_port {s : State} (h : Ready s) (port : List HostMove) : Ready { s with port := port } := h

theorem step_of_ready {s : State} (h : Ready s) : step s = stepIdle s := by
  rw [step_of_legal h.1, stepHost, h.2]

theorem step_of_busy {s : State} {op : InProgress} (hlegal : s.cfg.legal = true) (hbusy : s.busy = some op) :
    step s = stepBusy op s := by
  rw [step_of_legal hlegal, stepHost, hbusy]

theorem step_issue {s : State} {w : Word} {rest : List HostMove} (h : Ready s) (hport : s.port = .issue w :: rest) :
    step s = exec (decode w) { s with port := rest } := by
  rw [step_of_ready h, stepIdle, hport]

theorem step_start {s : State} {w : Word} {rest : List HostMove} (h : Ready s) (hport : s.port = .start w :: rest) :
    step s = .next { s with port := rest, busy := some ⟨w, 0⟩ } := by
  rw [step_of_ready h, stepIdle, hport]

theorem step_accept_of_ready {s : State} {rest : List HostMove} (h : Ready s) (hport : s.port = .accept :: rest) :
    step s = .next { s with port := rest } := by
  rw [step_of_ready h, stepIdle, hport]

theorem step_reset_of_ready {s : State} {rest : List HostMove} (h : Ready s) (hport : s.port = .reset :: rest) :
    step s = .next (hardwareReset { s with port := rest }) := by
  rw [step_of_ready h, stepIdle, hport]

theorem step_accept_of_waiting {s : State} {op : InProgress} {rest : List HostMove} (hlegal : s.cfg.legal = true)
    (hbusy : s.busy = some op) (hwait : waiting op s = true) (hport : s.port = .accept :: rest) :
    step s = .next { s with port := rest, busy := some { op with accepted := op.accepted + 1 } } := by
  rw [step_of_busy hlegal hbusy, stepBusy, hport]
  exact if_pos hwait

/-- Without an acceptance or a reset next, an operation that waits for the host goes on waiting (R35). -/
theorem step_of_waiting {s : State} {op : InProgress} (hlegal : s.cfg.legal = true) (hbusy : s.busy = some op)
    (hwait : waiting op s = true) (hrest : ∀ mv, s.port.head? = some mv → relieves mv = false) :
    step s = .next s := by
  rw [step_of_busy hlegal hbusy, stepBusy]
  split
  case h_1 hport => exact absurd (hrest .reset (by rw [hport]; rfl)) (by decide)
  case h_2 hport => exact absurd (hrest .accept (by rw [hport]; rfl)) (by decide)
  case h_3 => exact if_pos hwait

/-- Once every byte is accepted the operation completes, unless a reset comes first; no move is taken for it (R33). -/
theorem step_complete {s : State} {op : InProgress} (hlegal : s.cfg.legal = true) (hbusy : s.busy = some op)
    (hdone : waiting op s = false) (hrest : s.port.head? ≠ some .reset) :
    step s = exec (decode op.word) { s with busy := none } := by
  rw [step_of_busy hlegal hbusy, stepBusy]
  split
  case h_1 hport => exact absurd (by rw [hport]; rfl) hrest
  case h_2 => exact if_neg (by simp [hdone])
  case h_3 => exact if_neg (by simp [hdone])

/-- An operation leaves the block ready if it finds it so. -/
theorem ready_after {s : State} (h : Ready s) (i : Instr) : Ready (after i s) := by
  simpa [Ready] using h

/-- Settles O10: a ready block whose next move issues a word serves that move. -/
theorem stepRunsTheIssuedWord : Obligations.StepRunsTheIssuedWord := by
  refine ⟨fun s w rest => step_issue, fun s w hlegal => ?_⟩
  have hword : BitVec.ofNat 16 (w.toNat % 2 ^ 16) = w := by
    rw [Nat.mod_eq_of_lt w.isLt, BitVec.ofNat_toNat, BitVec.setWidth_eq]
  rw [State.withFetchWord, hword]
  exact step_issue ⟨hlegal, State.issueNext_busy w s⟩ (State.issueNext_port w s)

/-! ### Issued words -/

/-- Settles O13, by induction on the words: no operation reads the moves behind it, so each leaves the block ready for the
next word. -/
theorem issuedWordsRunInOrder : Obligations.IssuedWordsRunInOrder := by
  intro ws rest s hready
  induction ws generalizing s with
  | nil => rfl
  | cons w ws ih =>
    have hstep : step { s with port := (w :: ws).map .issue ++ rest } =
        .next { after (decode w) s with port := ws.map .issue ++ rest } := by
      rw [← after_with_port, ← exec_eq_after]
      exact step_issue (ready_with_port hready _) rfl
    have hrun := (core_run_next ws.length hstep).trans (ih _ (ready_after hready _))
    rwa [← after_with_port, runInstrs_eq_afterAll, ← afterAll_cons, ← runInstrs_eq_afterAll] at hrun

/-! ### Acceptances -/

/-- Acceptances move an operation that still has bytes for them forward, one byte a step, and change nothing else. -/
theorem run_accepts {s : State} {w : Word} (hlegal : s.cfg.legal = true) (rest : List HostMove) (k a : Nat)
    (hk : a + k ≤ (txBytes (decode w) s).length) :
    core.run k { s with busy := some ⟨w, a⟩, port := List.replicate k .accept ++ rest } =
      .next { s with busy := some ⟨w, a + k⟩, port := rest } := by
  induction k generalizing a with
  | zero => rfl
  | succ k ih =>
    have hlt : a < (txBytes (decode w) s).length := by omega
    have hwait : waiting ⟨w, a⟩ { s with busy := some ⟨w, a⟩, port := List.replicate (k + 1) .accept ++ rest } = true := by
      rwa [waiting_iff, txBytes_with_host]
    have hstep : step { s with busy := some ⟨w, a⟩, port := List.replicate (k + 1) .accept ++ rest } =
        .next { s with busy := some ⟨w, a + 1⟩, port := List.replicate k .accept ++ rest } :=
      step_accept_of_waiting (op := ⟨w, a⟩) hlegal rfl hwait rfl
    have hrun := (core_run_next k hstep).trans (ih (a + 1) (by omega))
    rwa [show a + 1 + k = a + (k + 1) by omega] at hrun

/-- A word started and its first `k` bytes accepted, in a ready block: the operation is in progress and nothing else has
changed (R35). -/
theorem run_start_accepts {s : State} {w : Word} {k : Nat} (h : Ready s) (hk : k ≤ (txBytes (decode w) s).length)
    (rest : List HostMove) :
    core.run (k + 1) { s with port := .start w :: (List.replicate k .accept ++ rest) } =
      .next { s with busy := some ⟨w, k⟩, port := rest } := by
  have hrun := run_accepts (w := w) h.1 rest k 0 (by omega)
  rw [Nat.zero_add] at hrun
  exact (core_run_next k (step_start (ready_with_port h _) rfl)).trans hrun

/-- With all its bytes accepted, a word runs as if none of them had had to wait. -/
theorem step_all_accepted {s : State} {w : Word} {rest : List HostMove} (h : Ready s)
    (hrest : rest.head? ≠ some .reset) :
    step { s with busy := some ⟨w, (txBytes (decode w) s).length⟩, port := rest } =
      exec (decode w) { s with port := rest } := by
  have hidle : { s with port := rest, busy := none } = { s with port := rest } := by rw [← h.2]
  have hdone : waiting ⟨w, (txBytes (decode w) s).length⟩
      { s with busy := some ⟨w, (txBytes (decode w) s).length⟩, port := rest } = false := by
    rw [waiting_eq_false_iff, txBytes_with_host]
  rw [← hidle]
  exact step_complete (op := ⟨w, _⟩) h.1 rfl hdone hrest

/-- Settles O14: the step after the last acceptance completes the operation in the state it was started in. -/
theorem delayedAcceptanceSameEffect : Obligations.DelayedAcceptanceSameEffect := by
  intro s w rest hready hrest
  have hlast := (step_all_accepted (w := w) hready hrest).trans (exec_eq_after _ _)
  rw [exec_eq_after]
  exact (core_run_add _ 1 (run_start_accepts hready le_rfl rest)).trans (core_run_next 0 hlast)

/-- A state that steps to itself is where every run from it ends. -/
theorem core_run_of_step_self {s : State} (h : step s = .next s) (m : Nat) : core.run m s = .next s := by
  induction m with
  | zero => rfl
  | succ m ih => rw [core_run_next m h, ih]

/-- Settles O15: after the last acceptance the block waits in one state for ever. -/
theorem unacceptedByteHangs : Obligations.UnacceptedByteHangs := by
  intro s w k m rest hready hk hrest
  have hwait : waiting ⟨w, k⟩ { s with busy := some ⟨w, k⟩, port := rest } = true := by
    rwa [waiting_iff, txBytes_with_host]
  have hself : step { s with busy := some ⟨w, k⟩, port := rest } =
      .next { s with busy := some ⟨w, k⟩, port := rest } :=
    step_of_waiting hready.1 rfl hwait hrest
  exact (core_run_add _ m (run_start_accepts hready hk.le rest)).trans (core_run_of_step_self hself m)

/-! ### Hosts that accept every byte -/

/-- In a ready block a prompt move is served in one step, after which the block is ready for the next (R33). -/
theorem step_prompt {s : State} {mv : HostMove} {rest : List HostMove} (h : Ready s) (hport : s.port = mv :: rest)
    (hmv : prompt mv = true) : ∃ t, step s = .next t ∧ Ready t ∧ t.port = rest := by
  cases mv with
  | issue w =>
    have hready := ready_after (ready_with_port h rest) (decode w)
    exact ⟨_, (step_issue h hport).trans (exec_eq_after _ _), hready, after_port _ _⟩
  | start w => cases hmv
  | accept => exact ⟨_, step_accept_of_ready h hport, h, rfl⟩
  | reset => exact ⟨_, step_reset_of_ready h hport, ⟨h.1, rfl⟩, rfl⟩

/-- Settles O17, by induction on the moves. -/
theorem promptHostIsServed : Obligations.PromptHostIsServed := by
  intro s hready hprompt
  induction hport : s.port generalizing s with
  | nil => exact ⟨s, rfl, hport, hready.2⟩
  | cons mv rest ih =>
    rw [hport, List.forall_mem_cons] at hprompt
    obtain ⟨t, hstep, ht, htport⟩ := step_prompt hready hport hprompt.1
    obtain ⟨u, hrun, hu⟩ := ih t ht (by rw [htport]; exact hprompt.2) htport
    exact ⟨u, (core_run_next rest.length hstep).trans hrun, hu⟩

end Sys2Proof.Machine
end

section
/-! PROOFS. Which operations write each field (10_state.md R21), and which of them clear a sticky bit (R24). -/

namespace Sys2Proof.Machine

/-! ### The writers of each field -/

theorem crc_writers {i : Instr} {s : State} (h : (after i s).crc ≠ s.crc) :
    i = .crcClr ∨ (∃ d, i = .crcByte d) ∨ (∃ d, i = .encCrcb d) ∨ i = .reset := by
  cases i with
  | crcClr => exact .inl rfl
  | crcByte d => exact .inr (.inl ⟨d, rfl⟩)
  | encCrcb d => exact .inr (.inr (.inl ⟨d, rfl⟩))
  | reset => exact .inr (.inr (.inr rfl))
  | decByte d => exact absurd (decStep_crc d s) h
  | _ => exact absurd rfl h

theorem carryOver_writers {i : Instr} {s : State}
    (h : ¬((after i s).rx_buf = s.rx_buf ∧ (after i s).rx_esc = s.rx_esc ∧ (after i s).rx_drop = s.rx_drop ∧
      (after i s).rx_bad = s.rx_bad)) :
    (∃ d, i = .decByte d) ∨ i = .decClr ∨ i = .reset := by
  cases i with
  | decByte d => exact .inl ⟨d, rfl⟩
  | decClr => exact .inr (.inl rfl)
  | reset => exact .inr (.inr rfl)
  | _ => exact absurd ⟨rfl, rfl, rfl, rfl⟩ h

theorem rxq_writers {i : Instr} {s : State} (h : (after i s).rxq ≠ s.rxq) :
    (∃ d, i = .decByte d) ∨ i = .decPop ∨ i = .decClr ∨ i = .reset := by
  cases i with
  | decByte d => exact .inl ⟨d, rfl⟩
  | decPop => exact .inr (.inl rfl)
  | decClr => exact .inr (.inr (.inl rfl))
  | reset => exact .inr (.inr (.inr rfl))
  | _ => exact absurd rfl h

theorem decoderSticky_writers {i : Instr} {s : State}
    (h : ¬((after i s).escerr = s.escerr ∧ (after i s).frmovf = s.frmovf ∧ (after i s).qovf = s.qovf)) :
    (∃ d, i = .decByte d) ∨ (∃ d, i = .statClr d) ∨ i = .reset := by
  cases i with
  | decByte d => exact .inl ⟨d, rfl⟩
  | statClr d => exact .inr (.inl ⟨d, rfl⟩)
  | reset => exact .inr (.inr rfl)
  | _ => exact absurd ⟨rfl, rfl, rfl⟩ h

theorem illop_writers {i : Instr} {s : State} (h : (after i s).illop ≠ s.illop) :
    (∃ op, i = .reserved op) ∨ (∃ d, i = .statClr d) ∨ i = .reset := by
  cases i with
  | reserved op => exact .inl ⟨op, rfl⟩
  | statClr d => exact .inr (.inl ⟨d, rfl⟩)
  | reset => exact .inr (.inr rfl)
  | decByte d => exact absurd (decStep_illop d s) h
  | _ => exact absurd rfl h

/-- Settles O28: the writers of each field, and the host's side, which has none. -/
theorem fieldsWrittenOnlyByTheirOperations : Obligations.FieldsWrittenOnlyByTheirOperations := by
  intro i s t hexec
  obtain rfl := after_of_exec hexec
  exact ⟨after_cfg i s, after_port i s, after_busy i s, crc_writers, carryOver_writers, rxq_writers,
    decoderSticky_writers, illop_writers⟩

/-! ### The decoder clears no sticky bit -/

theorem decStep_keeps_escerr {s : State} (h : s.escerr = true) (b : Byte) : (s.decStep b).escerr = true := by
  obtain ⟨-, -, hs⟩ | ⟨-, -, hs⟩ | ⟨-, -, hs⟩ | ⟨-, -, -, -, hs⟩ | ⟨-, -, v, hs⟩ | ⟨-, -, -, hs⟩ :=
    decStep_cases b s <;> rw [hs]
  · exact finishFrame_escerr _
  · exact (finishFrame_escerr _).trans h
  · exact h
  · exact rxStore_escerr b _
  · exact (rxStore_escerr v _).trans h
  · exact (rxStore_escerr b _).trans h

theorem decStep_keeps_frmovf {s : State} (h : s.frmovf = true) (b : Byte) : (s.decStep b).frmovf = true := by
  obtain ⟨-, -, hs⟩ | ⟨-, -, hs⟩ | ⟨-, -, hs⟩ | ⟨-, -, -, -, hs⟩ | ⟨-, -, v, hs⟩ | ⟨-, -, -, hs⟩ :=
    decStep_cases b s <;> rw [hs]
  · exact (finishFrame_frmovf _).trans h
  · exact (finishFrame_frmovf _).trans h
  · exact h
  · exact (rxStore_frmovf b _).mpr (.inl h)
  · exact (rxStore_frmovf v _).mpr (.inl h)
  · exact (rxStore_frmovf b _).mpr (.inl h)

theorem decStep_keeps_qovf {s : State} (h : s.qovf = true) (b : Byte) : (s.decStep b).qovf = true := by
  obtain ⟨-, -, hs⟩ | ⟨-, -, hs⟩ | ⟨-, -, hs⟩ | ⟨-, -, -, -, hs⟩ | ⟨-, -, v, hs⟩ | ⟨-, -, -, hs⟩ :=
    decStep_cases b s <;> rw [hs]
  · exact (finishFrame_qovf _).mpr (.inl h)
  · exact (finishFrame_qovf _).mpr (.inl h)
  · exact h
  · exact (rxStore_qovf b _).trans h
  · exact (rxStore_qovf v _).trans h
  · exact (rxStore_qovf b _).trans h

/-! ### Which operation clears a sticky bit -/

/-- Of the operations that write a sticky bit, the decoder's and the reserved ones only set it. -/
theorem after_keeps_sticky {i : Instr} (s : State) (hreset : i ≠ .reset) (hclr : ∀ d, i ≠ .statClr d) :
    (s.escerr = true → (after i s).escerr = true) ∧ (s.frmovf = true → (after i s).frmovf = true) ∧
    (s.qovf = true → (after i s).qovf = true) ∧ (s.illop = true → (after i s).illop = true) := by
  cases i with
  | reset => exact absurd rfl hreset
  | statClr d => exact absurd rfl (hclr d)
  | decByte d =>
    exact ⟨fun h => decStep_keeps_escerr h d, fun h => decStep_keeps_frmovf h d, fun h => decStep_keeps_qovf h d,
      (decStep_illop d s).trans⟩
  | reserved op => exact ⟨id, id, id, fun _ => rfl⟩
  | _ => exact ⟨id, id, id, id⟩

/-- A sticky bit falls under STAT_CLR only where the mask has a 1 (R102). -/
theorem mask_of_stickyAfter_eq_false {d : Byte} {k : Nat} {old : Bool} (hold : old = true)
    (h : stickyAfter d k old = false) : d.getLsbD k = true := by
  by_contra hk
  rw [stickyAfter, bitOf, if_neg hk, hold] at h
  cases h

/-- Settles O26: RESET is one of the two, STAT_CLR goes by its mask, and every other operation keeps what is set. -/
theorem stickyBitsClearedOnlyOnRequest : Obligations.StickyBitsClearedOnlyOnRequest := by
  intro i s t hexec
  obtain rfl := after_of_exec hexec
  by_cases hreset : i = .reset
  · exact ⟨fun _ _ => .inl hreset, fun _ _ => .inl hreset, fun _ _ => .inl hreset, fun _ _ => .inl hreset⟩
  by_cases hclr : ∃ d, i = .statClr d
  · obtain ⟨d, rfl⟩ := hclr
    have masked {k : Nat} {old : Bool} (hold : old = true) (h : stickyAfter d k old = false) :
        Instr.statClr d = .reset ∨ ∃ e, Instr.statClr d = .statClr e ∧ e.getLsbD k = true :=
      .inr ⟨d, rfl, mask_of_stickyAfter_eq_false hold h⟩
    exact ⟨masked, masked, masked, masked⟩
  · obtain ⟨hesc, hfrm, hq, hill⟩ := after_keeps_sticky s hreset (not_exists.mp hclr)
    exact ⟨fun h h' => absurd (hesc h) (by simp [h']), fun h h' => absurd (hfrm h) (by simp [h']),
      fun h h' => absurd (hq h) (by simp [h']), fun h h' => absurd (hill h) (by simp [h'])⟩

end Sys2Proof.Machine
end

section
/-! PROOFS. The STATUS byte (10_state.md R25, R26) and the values after reset (R20). -/

namespace Sys2Proof.Machine

open Sys2Proof.Safety

/-! ### The bits of the STATUS byte -/

/-- A status bit stands at its own place and nowhere else. -/
theorem getLsbD_statusBit (b : Bool) (k j : Nat) (hj : j < 8) :
    (statusBit b k).getLsbD j = (decide (j = k) && b) := by
  simp only [statusBit, BitVec.getLsbD_shiftLeft, BitVec.getLsbD_setWidth, BitVec.getLsbD_ofBool]
  by_cases h : j = k
  · simp [h ▸ hj, h]
  · by_cases hlt : j < k
    · simp [h, hlt]
    · simp [h, show ¬j - k = 0 by omega]

/-- Bit `j` of the STATUS byte, as R25 lists the eight. -/
theorem getLsbD_statusByte (s : State) (j : Nat) (hj : j < 8) :
    s.statusByte.getLsbD j =
      (decide (j = 0) && s.rxne || decide (j = 1) && s.rxpart || decide (j = 2) && s.escp ||
        decide (j = 3) && s.escerr || decide (j = 4) && s.frmovf || decide (j = 5) && s.qovf ||
        decide (j = 6) && s.illop) := by
  simp only [State.statusByte, BitVec.getLsbD_or, getLsbD_statusBit _ _ j hj]
  rfl

/-- Bits 0, 1, 2 and 7 show the receive side alone. -/
theorem readOnlyBits_eq_of_same_receive {s t : State} (hq : t.rxq = s.rxq) (hbuf : t.rx_buf = s.rx_buf)
    (hesc : t.rx_esc = s.rx_esc) (hdrop : t.rx_drop = s.rx_drop) :
    ∀ k ∈ [0, 1, 2, 7], t.statusByte.getLsbD k = s.statusByte.getLsbD k := by
  have hne : t.rxne = s.rxne := by rw [State.rxne, State.rxne, hq]
  have hpart : t.rxpart = s.rxpart := by rw [State.rxpart, State.rxpart, hbuf, hesc, hdrop]
  have hescp : t.escp = s.escp := hesc
  intro k hk
  have hlt : k < 8 := (by decide : ∀ k ∈ [0, 1, 2, 7], k < 8) k hk
  rw [getLsbD_statusByte t k hlt, getLsbD_statusByte s k hlt, hne, hpart, hescp]
  simp only [List.mem_cons, List.not_mem_nil, or_false] at hk
  obtain rfl | rfl | rfl | rfl := hk <;> simp

/-- Settles O23: each bit is read off the byte's one equation, and STAT_CLR writes nothing that the read-only bits
show. -/
theorem statusByteLayout : Obligations.StatusByteLayout := by
  intro s
  have bit (k : Nat) (hk : k < 8) {b : Bool} := (getLsbD_statusByte s k hk).trans (c := b)
  have hclr (d : Byte) : ∃ t, exec (.statClr d) s = .next t ∧
      ∀ k ∈ [0, 1, 2, 7], t.statusByte.getLsbD k = s.statusByte.getLsbD k :=
    ⟨_, exec_eq_after (.statClr d) s, readOnlyBits_eq_of_same_receive rfl rfl rfl rfl⟩
  refine ⟨bit 0 (by decide) ?_, bit 1 (by decide) ?_, bit 2 (by decide) ?_, bit 3 (by decide) ?_, bit 4 (by decide) ?_,
    bit 5 (by decide) ?_, bit 6 (by decide) ?_, bit 7 (by decide) ?_, hclr⟩ <;>
  simp [State.rxne, State.rxpart, State.escp]

theorem rxpart_eq_false_iff (s : State) :
    s.rxpart = false ↔ s.rx_buf = [] ∧ s.rx_esc = false ∧ s.rx_drop = false := by
  simp [State.rxpart, and_assoc]

/-- Settles O56: between frames the fifth invariant leaves no mark. -/
theorem rxpartClearMeansBetweenFrames : Obligations.RxpartClearMeansBetweenFrames := by
  intro s hinv
  have hbit : s.statusByte.getLsbD 1 = s.rxpart := (getLsbD_statusByte s 1 (by decide)).trans (by simp)
  rw [hbit, rxpart_eq_false_iff]
  refine ⟨fun ⟨hbuf, hesc, hdrop⟩ => ⟨hbuf, hesc, hdrop, ?_⟩, fun ⟨hbuf, hesc, hdrop, _⟩ => ⟨hbuf, hesc, hdrop⟩⟩
  by_contra hbad
  obtain hne | hd := hinv.badInsideFrame (Bool.eq_true_of_not_eq_false hbad)
  · exact hne hbuf
  · exact absurd (hd.symm.trans hdrop) nofun

/-! ### Reset -/

/-- Clearing the block leaves the record of the state after reset, under every configuration (R230). -/
theorem sameBlock_clearBlock (s : State) (c : Params) : SameBlock s.clearBlock (State.resetWith c) :=
  ⟨rfl, rfl, rfl, rfl, rfl, rfl, rfl, rfl, rfl, rfl⟩

@[simp] theorem statusBit_false (k : Nat) : statusBit false k = 0x00#8 := by simp [statusBit]

theorem statusByte_resetWith (c : Params) : (State.resetWith c).statusByte = 0x00#8 := by
  simp [State.statusByte, State.rxne, State.rxpart, State.escp, State.resetWith]

/-- Settles O20: the reset input and RESET both clear the block. -/
theorem resetValues : Obligations.ResetValues := fun c =>
  ⟨rfl, rfl, rfl, rfl, rfl, rfl, rfl, rfl, rfl, rfl, rfl, statusByte_resetWith c, fun s =>
    ⟨sameBlock_clearBlock s c, _, exec_eq_after .reset s, sameBlock_clearBlock s c⟩⟩

end Sys2Proof.Machine
end

section
/-! PROOFS. How many bytes each operation emits (20_memory.md R57). -/

namespace Sys2Proof.Machine

theorem frameLead_length (lead : Bool) : (frameLead lead).length = if lead then 1 else 0 := by cases lead <;> rfl

theorem slipEsc_length (b : Byte) : (slipEsc b).length = 1 ∨ (slipEsc b).length = 2 := by
  obtain ⟨-, h⟩ | ⟨-, h⟩ | ⟨-, -, h⟩ := slipEsc_cases b <;> simp [h]

/-- Settles O19: the encoder's operations emit a frame's lead, the wire form of one byte or an END; no other emits. -/
theorem emittedBytesPerOperation : Obligations.EmittedBytesPerOperation := by
  intro i s
  refine ⟨after i s, exec_eq_after i s, after_tx i s, ?_⟩
  cases i with
  | encBegin => exact frameLead_length s.cfg.LEADING_END
  | encByte d | encCrcb d => exact slipEsc_length d
  | encCrc => exact slipEsc_length s.crc
  | _ => rfl

end Sys2Proof.Machine
end

section
/-! PROOFS. Reads that repeat and reads that consume: STAT_RD, CRC_RD and DEC_POP issued any number of times
(20_memory.md R58, R60). -/

namespace Sys2Proof.Machine

/-! ### Reads without side effect -/

/-- An operation that only answers, with something the response log does not change, answers the same each time. -/
theorem afterAll_replicate_read {i : Instr} {answer : State → Response}
    (hread : ∀ s, after i s = s.respond (answer s)) (hlog : ∀ s r, answer (s.respond r) = answer s)
    (n : Nat) (s : State) :
    afterAll (List.replicate n i) s = { s with rsp := s.rsp ++ List.replicate n (answer s) } := by
  induction n generalizing s with
  | zero => simp
  | succ n ih =>
    rw [List.replicate_succ, afterAll_cons, hread, ih, hlog]
    simp [State.respond, List.replicate_succ]

/-! ### DEC_POP, which removes what it returns -/

/-- The record that delivers a queued entry: whole, with its mark and its classification (R165). -/
def presentRecord (e : Entry) : Response :=
  .frame true e.payload e.bad (classify e.payload).1 (classify e.payload).2

theorem after_decPop_of_cons {s : State} {e : Entry} {q : List Entry} (h : s.rxq = e :: q) :
    after .decPop s = { s with rxq := q, rsp := s.rsp ++ [presentRecord e] } := by
  rw [after, h]
  rfl

/-- Pops drain the queue from its head, one entry each. -/
theorem afterAll_replicate_decPop {n : Nat} {s : State} (hn : n ≤ s.rxq.length) :
    afterAll (List.replicate n .decPop) s =
      { s with rxq := s.rxq.drop n, rsp := s.rsp ++ (s.rxq.take n).map presentRecord } := by
  induction n generalizing s with
  | zero => simp
  | succ n ih =>
    obtain ⟨e, q, hq⟩ := List.exists_cons_of_length_pos (Nat.zero_lt_of_lt hn)
    have hrest : n ≤ q.length := by simpa [hq] using hn
    rw [List.replicate_succ, afterAll_cons, after_decPop_of_cons hq, ih hrest]
    simp [hq]

/-- Settles O50: the drained part is the n oldest entries in queue order. -/
theorem queueDrainsInOrder : Obligations.QueueDrainsInOrder := by
  intro n s hn
  rw [runInstrs_eq_afterAll, afterAll_replicate_decPop hn]
  rfl

/-- Settles O30: neither answer of a read depends on the log it is appended to, and two pops drain two entries. -/
theorem readsRepeatAndPopsDoNot : Obligations.ReadsRepeatAndPopsDoNot := by
  refine ⟨fun n s => ?_, fun n s => ?_, fun s e f q hq => ?_⟩
  · rw [runInstrs_eq_afterAll]
    exact congrArg _ (afterAll_replicate_read (answer := fun s => .status s.statusByte s.rxq.length)
      (fun _ => rfl) (fun _ _ => rfl) n s)
  · rw [runInstrs_eq_afterAll]
    exact congrArg _ (afterAll_replicate_read (answer := fun s => .byte s.crc) (fun _ => rfl) (fun _ _ => rfl) n s)
  · have hpops := queueDrainsInOrder 2 s (by simp [hq])
    rw [hq] at hpops
    exact hpops

end Sys2Proof.Machine
end

section
/-! PROOFS. What went before a RESET leaves no trace in the block (20_memory.md R59): no operation reads the logs or the
host's side, so a run adds to whatever logs it finds what it writes to empty ones. -/

namespace Sys2Proof.Machine

open Sys2Proof.Safety

/-! ### A block behind another host -/

/-- The block of `s` on the host's side of `h`, its logs continuing those of `h`. -/
def State.behind (s h : State) : State :=
  { s with tx := h.tx ++ s.tx, rsp := h.rsp ++ s.rsp, busy := h.busy, port := h.port }

theorem respond_behind (r : Response) (s h : State) : (s.respond r).behind h = (s.behind h).respond r := by
  simp [State.behind, State.respond]

theorem emitAll_behind (bs : List Byte) (s h : State) : (s.emitAll bs).behind h = (s.behind h).emitAll bs := by
  simp [State.behind, State.emitAll]

theorem decStep_behind (b : Byte) (s h : State) : (s.decStep b).behind h = (s.behind h).decStep b := by
  simp [State.behind, decStep_with_host]

/-- An operation has the same effect behind any host. -/
theorem after_behind (i : Instr) (s h : State) : (after i s).behind h = after i (s.behind h) := by
  cases i with
  | decByte d => rw [after, respond_behind, decStep_behind]; rfl
  | encBegin | encByte d | encCrcb d | encCrc | encEnd => rw [after, respond_behind, emitAll_behind]; rfl
  | _ => exact respond_behind _ _ h

theorem afterAll_behind (is : List Instr) (s h : State) : (afterAll is s).behind h = afterAll is (s.behind h) := by
  induction is generalizing s with
  | nil => rfl
  | cons i is ih => rw [afterAll_cons, afterAll_cons, ih, after_behind]

theorem sameBlock_behind (s h₁ h₂ : State) : SameBlock (s.behind h₁) (s.behind h₂) :=
  ⟨rfl, rfl, rfl, rfl, rfl, rfl, rfl, rfl, rfl, rfl⟩

/-! ### Runs that begin with RESET -/

theorem after_reset_eq_behind (s : State) : after .reset s = (after .reset (State.resetWith s.cfg)).behind s := by
  simp [after, State.behind, State.respond, State.clearBlock, State.resetWith]

/-- A run that begins with RESET is the run from the state after reset, behind the host it began with. -/
theorem afterAll_reset_eq_behind (is : List Instr) (s : State) :
    afterAll (.reset :: is) s = (afterAll (.reset :: is) (State.resetWith s.cfg)).behind s := by
  rw [afterAll_cons, after_reset_eq_behind, ← afterAll_behind, ← afterAll_cons]

/-- Settles O31: both runs are the one from the state after reset, each behind its own host. -/
theorem stateIsFunctionOfOperationsSinceReset : Obligations.StateIsFunctionOfOperationsSinceReset := by
  intro is s₁ s₂ hcfg
  have hrun (s : State) (h : s.cfg = s₁.cfg) : runInstrs (.reset :: is) s =
      .next ((afterAll (.reset :: is) (State.resetWith s₁.cfg)).behind s) := by
    rw [runInstrs_eq_afterAll, afterAll_reset_eq_behind, h]
  exact ⟨_, _, _, _, hrun s₁ rfl, hrun s₂ hcfg.symm, sameBlock_behind _ s₁ s₂, rfl, rfl, rfl, rfl⟩

end Sys2Proof.Machine
end

section
/-! PROOFS. The command word: the decoder and the encoder undo each other as far as R75 lets them, and the opcode table
covers every word once (30_encoding.md R70 to R75). -/

namespace Sys2Proof

open Sys2Proof.Machine

/-! ### The decoder over its two fields -/

@[simp] theorem decode_append (op d : Byte) : decode (op ++ d) = decodeFields op d := by
  rw [decode, opField_append, dField_append]

/-- The opcodes R72 lists: those that have a mnemonic. -/
def listedOpcodes : List Byte := mnemonicTable.map (·.2)

/-- The ranges of R73 are what R72 does not list. -/
theorem reservedOpcode_iff_unlisted (op : Byte) : reservedOpcode op = true ↔ op ∉ listedOpcodes := by
  have hlisted : ∀ op ∈ listedOpcodes, reservedOpcode op = false := List.forall_mem_map.mpr (by decide)
  exact ⟨fun hres hop => absurd (hres.symm.trans (hlisted op hop)) nofun, reservedOpcode_of_unlisted op⟩

/-- The ranges of R73 hold none of the five opcodes with an operand. -/
theorem takesOperand_of_reserved : ∀ op : Byte, reservedOpcode op = true → takesOperand op = false := by decide

theorem decodeFields_of_unlisted {op : Byte} (h : op ∉ listedOpcodes) (d : Byte) : decodeFields op d = .reserved op := by
  simp only [listedOpcodes, mnemonicTable, List.map_cons, List.map_nil, List.mem_cons, List.not_mem_nil, or_false,
    not_or] at h
  simp only [decodeFields, h, if_false]

theorem decodeFields_of_reserved {op : Byte} (h : reservedOpcode op = true) (d : Byte) :
    decodeFields op d = .reserved op := decodeFields_of_unlisted ((reservedOpcode_iff_unlisted op).mp h) d

/-- What the decoder answers is well-formed and carries the opcode it was given, with the data byte where the opcode
takes one and 0 where it takes none (R71, R74, R75). -/
theorem decodeFields_fields (op d : Byte) :
    WellFormed (decodeFields op d) ∧ opcode (decodeFields op d) = op ∧
      dataByte (decodeFields op d) = if takesOperand op then d else 0x00#8 := by
  by_cases hop : op ∈ listedOpcodes
  · simp only [listedOpcodes, mnemonicTable, List.map_cons, List.map_nil, List.mem_cons, List.not_mem_nil,
      or_false] at hop
    obtain rfl | rfl | rfl | rfl | rfl | rfl | rfl | rfl | rfl | rfl | rfl | rfl | rfl | rfl | rfl := hop <;>
    exact ⟨rfl, rfl, rfl⟩
  · have hres := (reservedOpcode_iff_unlisted op).mpr hop
    rw [decodeFields_of_unlisted hop, takesOperand_of_reserved op hres]
    exact ⟨hres, rfl, rfl⟩

/-! ### The round trips -/

/-- Settles O1: the match is exact, so the listed opcodes select their own operations; a reserved one is none of them. -/
theorem decodeEncodeRoundTrip : Obligations.DecodeEncodeRoundTrip := by
  intro i hi
  rw [encode, decode_append]
  cases i with
  | reserved op => exact decodeFields_of_reserved hi _
  | _ => rfl

/-- Settles O6: the decoder keeps the opcode, and the data byte where it is an operand. -/
theorem encodeDecodeKeepsOperand : Obligations.EncodeDecodeKeepsOperand := by
  intro w
  obtain ⟨-, hop, hd⟩ := decodeFields_fields (opField w) (dField w)
  rw [encode, decode, hop, hd]

/-- Without an operand the data field does not reach the operation (R75): both words decode to operations of one
encoding, and these are equal by the round trip. -/
theorem decodeFields_eq_of_no_operand {op : Byte} (h : takesOperand op = false) (d : Byte) :
    decodeFields op d = decodeFields op 0x00#8 := by
  obtain ⟨hwf, hop, hd⟩ := decodeFields_fields op d
  have hround := decodeEncodeRoundTrip _ hwf
  rw [encode, hop, hd, h, decode_append] at hround
  exact hround.symm

theorem dataByte_of_no_operand {i : Instr} (hi : WellFormed i) (h : takesOperand (opcode i) = false) :
    dataByte i = 0x00#8 := by
  obtain ⟨-, -, hd⟩ := decodeFields_fields (opcode i) (dataByte i)
  rw [← decode_append, ← encode, decodeEncodeRoundTrip i hi, h] at hd
  exact hd

/-- Settles O5, by the round trips. -/
theorem dataFieldIgnoredWithoutOperand : Obligations.DataFieldIgnoredWithoutOperand := by
  refine ⟨fun op d h02 h11 h21 h22 h30 => ?_, fun i hi hop => ?_⟩
  · have hop : takesOperand op = false := by simp [takesOperand, h02, h11, h21, h22, h30]
    rw [decode_append, decode_append, decodeFields_eq_of_no_operand hop]
  · rw [encode, dataByte_of_no_operand hi hop]

/-! ### The opcode map -/

/-- Settles O3: each listed opcode is matched by its own branch. -/
theorem opcodeMapDecodes : Obligations.OpcodeMapDecodes := by
  intro d
  simp only [decode_append]
  exact ⟨rfl, rfl, rfl, rfl, rfl, rfl, rfl, rfl, rfl, rfl, rfl, rfl, rfl, rfl, rfl,
    fun op hop => decodeFields_of_unlisted hop d⟩

/-- Settles O7: fixed words, evaluated. -/
theorem specWordsDecode : Obligations.SpecWordsDecode := by
  unfold Obligations.SpecWordsDecode
  decide

/-- Settles O4: a reserved opcode decodes to itself, whatever its data byte. -/
theorem reservedWordsSetIllopOnly : Obligations.ReservedWordsSetIllopOnly := by
  intro op d s hrange
  have hres : reservedOpcode op = true := by
    simpa [reservedOpcode, BitVec.le_def, or_assoc] using hrange
  have hdec : decode (op ++ d) = .reserved op := by rw [decode_append, decodeFields_of_reserved hres]
  exact ⟨hdec, by rw [hdec]; exact exec_eq_after (.reserved op) s⟩

/-! ### The opcode table -/

/-- A row whose mask leaves the data field out covers a word by its opcode alone. -/
theorem covers_eq_of_mask_data_zero {r : OpcodeRow} (h : dField r.mask = 0x00#8) (op d : Byte) :
    r.covers (op ++ d) = r.covers (op ++ 0x00#8) := by
  have hand (e : Byte) : (op ++ e) &&& r.mask = (op &&& opField r.mask) ++ 0x00#8 := by
    rw [← opField_append_dField r.mask, BitVec.and_append, opField_append, h, BitVec.and_zero]
  rw [OpcodeRow.covers, OpcodeRow.covers, hand, hand]

theorem opcodeRows_mask_data_zero : ∀ r ∈ opcodeRows, dField r.mask = 0x00#8 := by decide

theorem mnemonic_decodeFields (op d : Byte) : mnemonic (decodeFields op d) = mnemonic (decodeFields op 0x00#8) := by
  simp only [decodeFields, apply_ite mnemonic]
  rfl

/-- Each of the 256 opcodes has one row of the table, under its own mnemonic. -/
theorem opcode_has_one_row : ∀ op : Byte,
    (opcodeRows.filter (·.covers (op ++ 0x00#8))).map (·.name) = [mnemonic (decodeFields op 0x00#8)] := by decide

/-- Settles O2: neither the table nor a mnemonic looks at the data field, so the 256 opcodes decide. -/
theorem everyWordHasOneTableRow : Obligations.EveryWordHasOneTableRow := by
  intro w
  refine ⟨(decodeFields_fields _ _).1, ?_⟩
  have hrows : opcodeRows.filter (·.covers w) = opcodeRows.filter (·.covers (opField w ++ 0x00#8)) :=
    List.filter_congr fun r hr => by
      rw [← covers_eq_of_mask_data_zero (opcodeRows_mask_data_zero r hr) _ (dField w), opField_append_dField]
  rw [hrows, opcode_has_one_row, decode, mnemonic_decodeFields (opField w) (dField w)]

end Sys2Proof
end

section
/-! PROOFS. The assembler reads back what R83 writes, and refuses missing and superfluous operands (30_encoding.md R83). -/

namespace Sys2Proof.Machine

/-! ### Lines and their words -/

/-- A word of a statement: characters that neither separate words nor start a comment. -/
abbrev IsWord (w : List Char) : Prop := w ≠ [] ∧ ∀ c ∈ w, isBlank c = false ∧ c ≠ ';'

/-- Pushed in front of a cut, a word lengthens the word the cut begins with. -/
theorem foldr_pushChar_of_isWord {w : List Char} (h : IsWord w) (cut : List (List Char)) :
    w.foldr pushChar cut = (w ++ cut.headD []) :: cut.tail := by
  obtain ⟨hne, hchars⟩ := h
  induction w with
  | nil => exact absurd rfl hne
  | cons c w ih =>
    obtain ⟨⟨hc, -⟩, hw⟩ := List.forall_mem_cons.mp hchars
    cases w with
    | nil => cases cut <;> simp [pushChar, hc]
    | cons e w => rw [List.foldr_cons, ih (List.cons_ne_nil e w) hw]; simp [pushChar, hc]

/-- A space begins a new, still empty word in front of the cut. -/
theorem pushChar_space (cut : List (List Char)) :
    (pushChar ' ' cut).headD [] = [] ∧ (pushChar ' ' cut).tail = cut := by cases cut <;> exact ⟨rfl, rfl⟩

theorem wordsOf_of_isWord {w : List Char} (h : IsWord w) : wordsOf w = [w] := by
  rw [wordsOf, foldr_pushChar_of_isWord h]
  simp [h.1]

theorem wordsOf_append_space {w : List Char} (h : IsWord w) (rest : List Char) :
    wordsOf (w ++ ' ' :: rest) = w :: wordsOf rest := by
  obtain ⟨hhead, htail⟩ := pushChar_space (rest.foldr pushChar [])
  rw [wordsOf, List.foldr_append, foldr_pushChar_of_isWord h, List.foldr_cons, hhead, htail, List.append_nil, wordsOf]
  simp [h.1]

theorem stripComment_append {w : List Char} (h : IsWord w) (rest : List Char) :
    stripComment (w ++ rest) = w ++ stripComment rest :=
  List.takeWhile_append_of_pos fun c hc => by simpa using (h.2 c hc).2

/-- The words of a line before its comment. -/
def statementWords (line : List Char) : List (List Char) := wordsOf (stripComment line)

theorem statementWords_of_isWord {w : List Char} (h : IsWord w) : statementWords w = [w] := by
  have hstrip := stripComment_append h []
  rw [List.append_nil] at hstrip
  rw [statementWords, hstrip, stripComment, List.takeWhile_nil, List.append_nil, wordsOf_of_isWord h]

theorem statementWords_append_space {w : List Char} (h : IsWord w) (rest : List Char) :
    statementWords (w ++ ' ' :: rest) = w :: statementWords rest := by
  have hspace : stripComment (' ' :: rest) = ' ' :: stripComment rest := List.takeWhile_cons_of_pos (by decide)
  rw [statementWords, stripComment_append h, hspace, wordsOf_append_space h, statementWords]

/-! ### Mnemonics -/

theorem mnemonic_isWord : ∀ row ∈ mnemonicTable, IsWord row.1 := by
  have hcheck : ∀ row ∈ mnemonicTable, row.1 ≠ [] ∧ row.1.all (fun c => !isBlank c && c ≠ ';') = true := by decide
  simpa [IsWord] using hcheck

theorem lookupMnemonic_of_mem : ∀ row ∈ mnemonicTable, lookupMnemonic row.1 = some row.2 := by decide

/-- A line that begins with a mnemonic assembles as the statement of the words behind it. -/
theorem assembleLine_of_words {row : List Char × Byte} (hrow : row ∈ mnemonicTable) {line : List Char}
    {operands : List (List Char)} (h : statementWords line = row.1 :: operands) :
    assembleLine line = assembleStatement row.2 operands := by
  rw [statementWords] at h
  rw [assembleLine, h]
  simp only [lookupMnemonic_of_mem row hrow]

/-- An operation that is not reserved has the mnemonic its statement is printed with. -/
theorem printInstr_of_not_reserved {i : Instr} (hwf : WellFormed i) (h : ∀ op, i ≠ .reserved op) :
    ∃ m, (m, opcode i) ∈ mnemonicTable ∧
      printInstr i = some (if takesOperand (opcode i) then m ++ ' ' :: printByte (dataByte i) else m) := by
  have hlisted : opcode i ∈ listedOpcodes := by
    by_contra hop
    refine h (opcode i) ?_
    rw [← decodeFields_of_unlisted hop (dataByte i), ← decode_append]
    exact (decodeEncodeRoundTrip i hwf).symm
  obtain ⟨row, hmem, hrow⟩ := List.mem_map.mp hlisted
  cases hfind : mnemonicTable.find? (·.2 = opcode i) with
  | none => exact absurd hrow (by simpa using List.find?_eq_none.mp hfind row hmem)
  | some found =>
    have hop : found.2 = opcode i := by simpa using List.find?_some hfind
    refine ⟨found.1, by rw [← hop]; exact List.mem_of_find?_eq_some hfind, ?_⟩
    simp [printInstr, hfind]

/-! ### Operands -/

theorem hexDigit_hexChar : ∀ v < 16, hexDigit (hexChar v) = some v := by decide

theorem hexChar_in_word : ∀ v < 16, isBlank (hexChar v) = false ∧ hexChar v ≠ ';' := by decide

theorem div_sixteen_lt (d : Byte) : d.toNat / 16 < 16 := Nat.div_lt_of_lt_mul d.isLt

theorem printByte_isWord (d : Byte) : IsWord (printByte d) := by
  refine ⟨List.cons_ne_nil _ _, ?_⟩
  simp only [printByte, List.forall_mem_cons]
  exact ⟨by decide, by decide, hexChar_in_word _ (div_sixteen_lt d), hexChar_in_word _ (Nat.mod_lt _ (by decide)), nofun⟩

/-- A printed byte is read back. -/
theorem parseOperand_printByte (d : Byte) : parseOperand (printByte d) = some d := by
  rw [printByte, parseOperand, hexDigit_hexChar _ (div_sixteen_lt d), hexDigit_hexChar _ (Nat.mod_lt _ (by decide))]
  simp only [Nat.div_add_mod, BitVec.ofNat_toNat, BitVec.setWidth_eq]

/-! ### Statements -/

/-- Settles O8: the line's words are the mnemonic and, where the opcode takes one, the printed byte. -/
theorem assemblerReadsStatements : Obligations.AssemblerReadsStatements := by
  intro i hwf hres
  obtain ⟨m, hm, hprint⟩ := printInstr_of_not_reserved hwf hres
  have hword := mnemonic_isWord _ hm
  refine ⟨_, hprint, ?_⟩
  cases hop : takesOperand (opcode i) with
  | false =>
    rw [if_neg nofun, assembleLine_of_words hm (statementWords_of_isWord hword), encode, dataByte_of_no_operand hwf hop]
    simp [assembleStatement, hop]
  | true =>
    have hwords := statementWords_append_space hword (printByte (dataByte i))
    rw [statementWords_of_isWord (printByte_isWord _)] at hwords
    rw [if_pos rfl, assembleLine_of_words hm hwords, encode]
    simp [assembleStatement, hop, parseOperand_printByte]

/-- Settles O9, by counting the words behind the mnemonic. -/
theorem assemblerOperandErrors : Obligations.AssemblerOperandErrors := by
  intro row hrow d
  have hword := mnemonic_isWord row hrow
  have hbyte := printByte_isWord d
  cases hop : takesOperand row.2 with
  | false =>
    have hwords := statementWords_append_space hword (printByte d)
    rw [statementWords_of_isWord hbyte] at hwords
    rw [if_neg nofun, assembleLine_of_words hrow hwords]
    simp [assembleStatement, hop]
  | true =>
    have hwords := statementWords_append_space hword (printByte d ++ ' ' :: printByte d)
    rw [statementWords_append_space hbyte, statementWords_of_isWord hbyte] at hwords
    rw [if_pos rfl, assembleLine_of_words hrow (statementWords_of_isWord hword), List.append_assoc, List.cons_append,
      assembleLine_of_words hrow hwords]
    simp [assembleStatement, hop]

end Sys2Proof.Machine
end

section
/-! PROOFS. Responses: one record for each operation (30_encoding.md R82), and the answer of CRC_COMPUTE (R84). -/

namespace Sys2Proof.Machine

/-- Settles O29: each meaning ends in its one `respond`. -/
theorem oneResponsePerOperation : Obligations.OneResponsePerOperation := by
  intro i s
  refine ⟨after i s, exec_eq_after i s, ?_⟩
  cases i with
  | decPop => cases h : s.rxq <;> exact ⟨_, _, _, _, _, by rw [after, h]; rfl⟩
  | decByte d => exact congrArg (· ++ [.none]) (decStep_rsp d s)
  | _ => rfl

/-- Bytes folded by CRC_BYTE one after the other: the accumulator folds them left to right, each with a `none`. -/
theorem afterAll_map_crcByte (bs : List Byte) (s : State) :
    afterAll (bs.map .crcByte) s =
      { s with crc := bs.foldl crcStep s.crc, rsp := s.rsp ++ List.replicate bs.length .none } := by
  induction bs generalizing s with
  | nil => simp
  | cons b bs ih =>
    rw [List.map_cons, afterAll_cons, ih]
    simp [after, State.respond, State.setCrc, List.replicate_succ]

/-- Settles O45: CRC_CLR starts the fold where `compute` does. -/
theorem crcComputeAnswersChecksum : Obligations.CrcComputeAnswersChecksum := by
  intro bs s
  refine ⟨_, runInstrs_eq_afterAll _ s, ?_⟩
  rw [Pseudo.expand, List.cons_append, afterAll_cons, afterAll_append, afterAll_map_crcByte]
  simp [after, compute, List.replicate_succ]

end Sys2Proof.Machine
end

section
/-! PROOFS. The results of the control operations, each with its whole next state (40_control.md R100 to R103). -/

namespace Sys2Proof.Machine

/-- Settles O21: `respond` writes the response log alone. -/
theorem nopResult : Obligations.NopResult := fun s => exec_eq_after .nop s

/-- Settles O22: as NOP, with the record read from the state before. -/
theorem statRdResult : Obligations.StatRdResult := fun s => exec_eq_after .statRd s

/-- STAT_CLR's masking with the bit numbers R102 prints. -/
theorem clearSticky_eq_masked (d : Byte) (s : State) :
    s.clearSticky d = { s with
      escerr := if d.getLsbD 3 then false else s.escerr
      frmovf := if d.getLsbD 4 then false else s.frmovf
      qovf := if d.getLsbD 5 then false else s.qovf
      illop := if d.getLsbD 6 then false else s.illop } := rfl

/-- Settles O24, by the masking of each sticky bit at its own place. -/
theorem statClrResult : Obligations.StatClrResult := by
  intro d s
  rw [exec_eq_after, after, clearSticky_eq_masked]
  rfl

/-- Settles O25: RESET clears the block, and `clearBlock` writes neither the stream nor the host's side. -/
theorem resetOperationResult : Obligations.ResetOperationResult := fun s => exec_eq_after .reset s

end Sys2Proof.Machine
end

section
/-! PROOFS. The CRC fold and the checksum it computes (41_crc.md R120, R121, R126, R127, R129). -/

namespace Sys2Proof.Machine

/-! ### The fold over whole numbers -/

/-- A round of R120's pseudocode on unbounded naturals: the accumulator and what is left of the byte. -/
def natRound (p : Nat × Nat) : Nat × Nat :=
  (if (p.1 ^^^ p.2) &&& 1 = 1 then (p.1 >>> 1) ^^^ 0x8C else p.1 >>> 1, p.2 >>> 1)

/-- On bytes a round of the pseudocode is the model's round: nothing it computes leaves eight bits. -/
theorem natRound_toNat (acc b : Byte) :
    natRound (acc.toNat, b.toNat) = ((crcRound acc b).toNat, (b >>> 1).toNat) := by
  have hbit : (acc.toNat ^^^ b.toNat) &&& 1 = 1 ↔ (acc ^^^ b) &&& 1#8 = 1#8 := by
    rw [← BitVec.toNat_inj, BitVec.toNat_and, BitVec.toNat_xor]
    rfl
  simp only [natRound, crcRound, hbit, apply_ite BitVec.toNat, BitVec.toNat_xor, BitVec.toNat_ushiftRight]
  rfl

theorem natRound_iterate_toNat (n : Nat) (acc b : Byte) :
    (natRound^[n] (acc.toNat, b.toNat)).1 = (crcRounds n acc b).toNat := by
  induction n generalizing acc b with
  | zero => rfl
  | succ n ih => rw [Function.iterate_succ_apply, natRound_toNat, ih, crcRounds_succ]

/-- Settles O33, by the agreement of each round. -/
theorem crcStepFollowsPseudocode : Obligations.CrcStepFollowsPseudocode := by
  intro acc b
  rw [crcStep_eq_rounds]
  exact (natRound_iterate_toNat 8 acc b).symm

/-! ### The fold depends on the exclusive or alone -/

/-- `n` rounds see `acc` and `b` only through their exclusive or, but for what is left of `b`. -/
theorem crcRounds_xor_shift (n : Nat) (acc b : Byte) :
    crcRounds n acc b ^^^ (b >>> n) = crcRounds n (acc ^^^ b) 0#8 := by
  induction n generalizing acc b with
  | zero => rfl
  | succ n ih =>
    calc crcRounds (n + 1) acc b ^^^ (b >>> (n + 1))
        = crcRounds n (crcRound acc b) (b >>> 1) ^^^ ((b >>> 1) >>> n) := by
          rw [crcRounds_succ, ← BitVec.shiftRight_add, Nat.add_comm 1 n]
      _ = crcRounds n (crcRound (acc ^^^ b) 0#8) 0#8 := by rw [ih, crcRound_xor_shift]
      _ = crcRounds (n + 1) (acc ^^^ b) 0#8 := rfl

/-- After eight rounds nothing is left of the byte (R126). -/
theorem crcStep_eq_xor_zero (acc b : Byte) : crcStep acc b = crcStep (acc ^^^ b) 0#8 := by
  have hleft : b >>> 8 = 0#8 := BitVec.ushiftRight_eq_zero le_rfl
  rw [crcStep_eq_rounds, crcStep_eq_rounds, ← crcRounds_xor_shift, hleft, BitVec.xor_zero]

theorem crcStep_self (c : Byte) : crcStep c c = 0#8 := by
  rw [crcStep_eq_xor_zero, BitVec.xor_self]
  decide

/-! ### The table form -/

/-- V-CRC-1 lists the fold of every byte. -/
theorem crcTable_eq_crcStep_zero : ∀ x : Byte, crcTable x = some (crcStep x 0#8) := by decide

theorem foldl_crcStep_replicate_zero (n : Nat) : (List.replicate n 0#8).foldl crcStep 0#8 = 0#8 := by
  induction n with
  | zero => rfl
  | succ n ih => rw [List.replicate_succ, List.foldl_cons, crcStep_self, ih]

/-- Settles O34: the fold depends on the exclusive or alone, so the 256 entries decide. -/
theorem crcTableForm : Obligations.CrcTableForm := by
  refine ⟨fun acc b => ?_, foldl_crcStep_replicate_zero⟩
  rw [crcTable_eq_crcStep_zero, ← crcStep_eq_xor_zero]

/-! ### Different bytes fold differently -/

/-- The inverse of a round with no byte left: only the feedback sets the top bit. -/
def crcUnround (y : Byte) : Byte := if y.msb then ((y ^^^ CRC_FEEDBACK) <<< 1) ||| 1#8 else y <<< 1

theorem crcUnround_crcRound : ∀ x : Byte, crcUnround (crcRound x 0#8) = x := by decide

theorem crcRounds_zero_byte_injective (n : Nat) : Function.Injective (crcRounds n · 0#8) := by
  induction n with
  | zero => exact Function.injective_id
  | succ n ih => exact ih.comp (Function.LeftInverse.injective crcUnround_crcRound)

/-- The fold tells two pairs apart exactly by their exclusive or: the table is a bijection (R129). -/
theorem crcStep_inj {acc acc' b b' : Byte} : crcStep acc b = crcStep acc' b' ↔ acc ^^^ b = acc' ^^^ b' := by
  rw [crcStep_eq_xor_zero acc, crcStep_eq_xor_zero acc', crcStep_eq_rounds, crcStep_eq_rounds]
  exact (crcRounds_zero_byte_injective 8).eq_iff

theorem foldl_crcStep_injective (q : List Byte) : Function.Injective (q.foldl crcStep) := by
  induction q with
  | nil => exact Function.injective_id
  | cons b q ih => exact fun _ _ h => (BitVec.xor_left_inj b).mp (crcStep_inj.mp (ih h))

/-! ### The checksum -/

/-- Settles O35: the checksum is a left fold. -/
theorem computeFoldsLeftToRight : Obligations.ComputeFoldsLeftToRight :=
  ⟨rfl, fun D b => List.foldl_concat crcStep CRC_INIT b D⟩

/-- Settles O36: an accumulator folds itself to 0. -/
theorem crcSelfCheck : Obligations.CrcSelfCheck := by
  intro D
  rw [computeFoldsLeftToRight.2, crcStep_self]

/-- Settles O37: the two accumulators differ after the changed byte, and the bytes behind keep them apart. -/
theorem oneByteChangesChecksum : Obligations.OneByteChangesChecksum := by
  intro p q a b hne heq
  rw [compute, compute, List.foldl_append, List.foldl_append, List.foldl_cons, List.foldl_cons] at heq
  have hstep := foldl_crcStep_injective q heq
  exact hne ((BitVec.xor_right_inj _).mp (crcStep_inj.mp hstep))

end Sys2Proof.Machine
end

section
/-! PROOFS. The CRC unit's operations, and its accumulator along a run (41_crc.md R122 to R125). -/

namespace Sys2Proof.Machine

/-- Settles O32, by the state each operation leaves. -/
theorem crcOperationResults : Obligations.CrcOperationResults := fun d s =>
  ⟨exec_eq_after .crcClr s, exec_eq_after (.crcByte d) s, exec_eq_after .crcRd s⟩

/-- CRC_CLR and RESET apart, only an operation with a byte to fold writes the accumulator (R125). -/
theorem after_crc {i : Instr} (hclr : i ≠ .crcClr) (hreset : i ≠ .reset) (s : State) :
    (after i s).crc = (foldedByte i).toList.foldl crcStep s.crc := by
  cases i with
  | crcClr => exact absurd rfl hclr
  | reset => exact absurd rfl hreset
  | decByte d => exact decStep_crc d s
  | _ => rfl

/-- Without CRC_CLR and RESET a run folds the folded bytes of its operations in order. -/
theorem afterAll_crc {is : List Instr} (h : ∀ i ∈ is, i ≠ .crcClr ∧ i ≠ .reset) (s : State) :
    (afterAll is s).crc = (is.filterMap foldedByte).foldl crcStep s.crc := by
  induction is generalizing s with
  | nil => rfl
  | cons i is ih =>
    obtain ⟨⟨hclr, hreset⟩, his⟩ := List.forall_mem_cons.mp h
    rw [afterAll_cons, ih his, after_crc hclr hreset]
    cases hb : foldedByte i with
    | none => rw [List.filterMap_cons_none hb]; rfl
    | some b => rw [List.filterMap_cons_some hb]; rfl

/-- Settles O38: CRC_CLR starts the fold where `compute` does. -/
theorem runningAccumulatorIsCompute : Obligations.RunningAccumulatorIsCompute := fun _ s h =>
  ⟨_, runInstrs_eq_afterAll _ s, afterAll_crc h _⟩

end Sys2Proof.Machine
end

section
/-! PROOFS. The wire form of a payload and the frame around it (42_slip_encoder.md R140, R141, R149). -/

namespace Sys2Proof.Machine

/-! ### The wire form of one byte and of a payload -/

/-- Settles O40: END and ESC are the two bytes with a pair; any other is outside the first two cases of `slipEsc`. -/
theorem wireFormOfPayloadByte : Obligations.WireFormOfPayloadByte :=
  ⟨rfl, rfl, fun b hend hesc => by
    obtain ⟨h, -⟩ | ⟨h, -⟩ | ⟨-, -, h⟩ := slipEsc_cases b
    · exact absurd h hend
    · exact absurd h hesc
    · exact h⟩

/-- An escape pair is one byte longer than the byte it stands for. -/
theorem slipEsc_length_eq (b : Byte) :
    (slipEsc b).length = 1 + if b = SLIP_END || b = SLIP_ESC then 1 else 0 := by
  obtain ⟨rfl, h⟩ | ⟨rfl, h⟩ | ⟨hend, hesc, h⟩ := slipEsc_cases b
  · rw [h]; rfl
  · rw [h]; rfl
  · simp [h, hend, hesc]

theorem slipEscAll_length (p : List Byte) :
    (slipEscAll p).length = p.length + p.countP (fun b => b = SLIP_END || b = SLIP_ESC) := by
  induction p with
  | nil => rfl
  | cons b p ih =>
    rw [slipEscAll_cons, List.length_append, slipEsc_length_eq, ih, List.countP_cons, List.length_cons]
    omega

theorem end_notMem_slipEsc (b : Byte) : SLIP_END ∉ slipEsc b := by
  obtain ⟨-, h⟩ | ⟨-, h⟩ | ⟨hend, -, h⟩ := slipEsc_cases b
  · rw [h]; decide
  · rw [h]; decide
  · rw [h, List.mem_singleton]; exact hend.symm

theorem end_notMem_slipEscAll (p : List Byte) : SLIP_END ∉ slipEscAll p := fun h =>
  have ⟨b, _, hb⟩ := List.mem_flatMap.mp h
  end_notMem_slipEsc b hb

/-! ### The frame -/

theorem frameLead_count_end (lead : Bool) : (frameLead lead).count SLIP_END = if lead then 1 else 0 := by
  cases lead <;> rfl

/-- Settles O41: the length is added up from the lengths of the lead, of the escaped payload and of the terminator. -/
theorem frameShapeAndLength : Obligations.FrameShapeAndLength := by
  intro lead p
  refine ⟨by rw [← List.flatMap_def]; rfl, ?_⟩
  rw [encodeFrame, List.length_append, List.length_append, frameLead_length, slipEscAll_length, List.length_singleton]
  omega

/-- Settles O42: no wire form holds an END, so the ENDs of a frame are those of its lead and its terminator. -/
theorem noEndInsideEscapedPayload : Obligations.NoEndInsideEscapedPayload := by
  intro lead p
  have hend := end_notMem_slipEscAll p
  refine ⟨hend, ?_⟩
  rw [encodeFrame, List.count_append, List.count_append, frameLead_count_end, List.count_eq_zero.mpr hend,
    List.count_singleton_self]
  omega

end Sys2Proof.Machine
end

section
/-! PROOFS. The encoder's operations, and the stream along a run of them (42_slip_encoder.md R142 to R147). -/

namespace Sys2Proof.Machine

/-- Settles O39, by the state each operation leaves. -/
theorem encoderOperationResults : Obligations.EncoderOperationResults := fun d s =>
  ⟨exec_eq_after .encBegin s, exec_eq_after (.encByte d) s, exec_eq_after (.encCrcb d) s, exec_eq_after .encCrc s,
    exec_eq_after .encEnd s⟩

/-- The frame's markers and the checksum apart, an operation emits the wire form of its payload byte, if it has one. -/
theorem txBytes_eq_slipEscAll {i : Instr} (hbegin : i ≠ .encBegin) (hcrc : i ≠ .encCrc) (hend : i ≠ .encEnd) (s : State) :
    txBytes i s = slipEscAll (payloadByte i).toList := by
  cases i with
  | encBegin => exact absurd rfl hbegin
  | encCrc => exact absurd rfl hcrc
  | encEnd => exact absurd rfl hend
  | encByte d | encCrcb d => exact (List.append_nil _).symm
  | _ => rfl

/-- Between ENC_BEGIN and ENC_END a run appends the escaped payload, whatever other units do in it. -/
theorem afterAll_tx {is : List Instr} (h : ∀ i ∈ is, i ≠ .encBegin ∧ i ≠ .encCrc ∧ i ≠ .encEnd) (s : State) :
    (afterAll is s).tx = s.tx ++ slipEscAll (is.filterMap payloadByte) := by
  induction is generalizing s with
  | nil => exact (List.append_nil _).symm
  | cons i is ih =>
    obtain ⟨⟨hbegin, hcrc, hend⟩, his⟩ := List.forall_mem_cons.mp h
    rw [afterAll_cons, ih his, after_tx, txBytes_eq_slipEscAll hbegin hcrc hend, List.append_assoc, ← slipEscAll_append]
    cases hb : payloadByte i with
    | none => rw [List.filterMap_cons_none hb]; rfl
    | some b => rw [List.filterMap_cons_some hb]; rfl

/-- Settles O43: ENC_BEGIN appends the lead, the operations between the escaped payload, ENC_END the terminator. -/
theorem frameEqualsFunction : Obligations.FrameEqualsFunction := by
  intro is s h
  refine ⟨_, runInstrs_eq_afterAll _ s, ?_⟩
  calc (afterAll (.encBegin :: is ++ [.encEnd]) s).tx
    _ = (afterAll is (after .encBegin s)).tx ++ [SLIP_END] := by
      rw [afterAll_append, afterAll_cons, afterAll_cons, afterAll_nil, after_tx, txBytes]
    _ = s.tx ++ frameLead s.cfg.LEADING_END ++ slipEscAll (is.filterMap payloadByte) ++ [SLIP_END] := by
      rw [afterAll_tx h, after_tx, txBytes]
    _ = s.tx ++ encodeFrame s.cfg.LEADING_END (is.filterMap payloadByte) := by
      simp only [encodeFrame, List.append_assoc]

end Sys2Proof.Machine
end

section
/-! PROOFS. The decoder's operations, one equation per case (43_slip_decoder.md R160 to R166, R171). -/

namespace Sys2Proof.Machine

/-! ### Storing a byte (R162) -/

theorem rxStore_of_drop {s : State} (h : s.rx_drop = true) (v : Byte) : s.rxStore v = s := if_pos h

theorem rxStore_of_full {s : State} (hdrop : s.rx_drop = false) (hfull : s.cfg.MAX_FRAME = some s.rx_buf.length)
    (v : Byte) : s.rxStore v = { s with rx_buf := [], rx_drop := true, frmovf := true } := by
  rw [State.rxStore, if_neg (by simp [hdrop]), if_pos hfull]

theorem rxStore_of_room {s : State} (hdrop : s.rx_drop = false) (hroom : s.cfg.MAX_FRAME ≠ some s.rx_buf.length)
    (v : Byte) : s.rxStore v = { s with rx_buf := s.rx_buf ++ [v] } := by
  rw [State.rxStore, if_neg (by simp [hdrop]), if_neg hroom]

/-- Settles O47, by the equation of each case. -/
theorem storeByteCases : Obligations.StoreByteCases := fun v _ =>
  ⟨fun hdrop => rxStore_of_drop hdrop v, fun hdrop hfull => rxStore_of_full hdrop hfull v,
    fun hdrop hroom => rxStore_of_room hdrop hroom v⟩

/-! ### Closing a frame (R163) -/

theorem finishFrame_of_nothing {s : State} (h : s.rx_drop = true ∨ s.rx_buf = []) :
    s.finishFrame = s.clearCarryOver := by
  have hq : s.queueFrame = s := by
    obtain hdrop | hbuf := h
    · exact if_pos hdrop
    · rw [State.queueFrame, if_pos hbuf, ite_self]
  rw [State.finishFrame, hq]

theorem finishFrame_of_full {s : State} (hdrop : s.rx_drop = false) (hbuf : s.rx_buf ≠ [])
    (hfull : s.cfg.QUEUE_DEPTH = some s.rxq.length) :
    s.finishFrame = { s.clearCarryOver with qovf := true } := by
  rw [State.finishFrame, State.queueFrame, if_neg (by simp [hdrop]), if_neg hbuf, if_pos hfull]
  rfl

theorem finishFrame_of_room {s : State} (hdrop : s.rx_drop = false) (hbuf : s.rx_buf ≠ [])
    (hroom : s.cfg.QUEUE_DEPTH ≠ some s.rxq.length) :
    s.finishFrame = { s.clearCarryOver with rxq := s.rxq ++ [⟨s.rx_buf, s.rx_bad⟩] } := by
  rw [State.finishFrame, State.queueFrame, if_neg (by simp [hdrop]), if_neg hbuf, if_neg hroom]
  rfl

/-- Settles O48, by the equation of each case. -/
theorem finishFrameCases : Obligations.FinishFrameCases := fun _ =>
  ⟨finishFrame_of_nothing, finishFrame_of_full, finishFrame_of_room⟩

/-- The queue after an END: the frame joins it unless it is dropped or finds no room. -/
theorem finishFrame_rxq (s : State) :
    s.finishFrame.rxq = if s.rx_drop = true ∨ s.rx_buf = [] ∨ s.cfg.QUEUE_DEPTH = some s.rxq.length then s.rxq
      else s.rxq ++ [⟨s.rx_buf, s.rx_bad⟩] := by
  split
  case isTrue h =>
    obtain ⟨-, hs⟩ | ⟨-, -, -, hs⟩ | ⟨hdrop, hbuf, hroom, -⟩ := queueFrame_cases s
    · rw [State.finishFrame, hs]; rfl
    · rw [State.finishFrame, hs]; rfl
    · simp [hdrop, hbuf, hroom] at h
  case isFalse h =>
    obtain ⟨hdrop, hbuf, hroom⟩ := not_or.mp h |>.imp_right not_or.mp
    rw [finishFrame_of_room (Bool.eq_false_of_not_eq_true hdrop) hbuf hroom]

/-! ### The decoder step (R161) -/

theorem decStep_of_escaped {s : State} (h : s.rx_esc = true) (b : Byte) :
    s.decStep b = { s with rx_esc := false }.decEscaped b := if_pos h

theorem decStep_of_plain {s : State} (h : s.rx_esc = false) (b : Byte) : s.decStep b = s.decPlain b :=
  if_neg (by simp [h])

@[simp] theorem decEscaped_end (s : State) : s.decEscaped SLIP_END = s.noteBadEscape.finishFrame := rfl

@[simp] theorem decEscaped_esc_end (s : State) : s.decEscaped SLIP_ESC_END = s.rxStore SLIP_END := rfl

@[simp] theorem decEscaped_esc_esc (s : State) : s.decEscaped SLIP_ESC_ESC = s.rxStore SLIP_ESC := rfl

theorem decEscaped_of_invalid {b : Byte} (hend : b ≠ SLIP_END) (hescEnd : b ≠ SLIP_ESC_END)
    (hescEsc : b ≠ SLIP_ESC_ESC) (s : State) : s.decEscaped b = s.noteBadEscape.rxStore b := by
  rw [State.decEscaped, if_neg hend, if_neg hescEnd, if_neg hescEsc]

@[simp] theorem decPlain_end (s : State) : s.decPlain SLIP_END = s.finishFrame := rfl

@[simp] theorem decPlain_esc (s : State) : s.decPlain SLIP_ESC = { s with rx_esc := true } := rfl

theorem decPlain_of_unmarked {b : Byte} (hend : b ≠ SLIP_END) (hesc : b ≠ SLIP_ESC) (s : State) :
    s.decPlain b = s.rxStore b := by
  rw [State.decPlain, if_neg hend, if_neg hesc]

/-- DEC_BYTE is the decoder step with the response `none` (R160). -/
theorem exec_decByte (b : Byte) (s : State) :
    exec (.decByte b) s = .next { s.decStep b with rsp := s.rsp ++ [.none] } := by
  rw [exec_eq_after, after, State.respond, decStep_rsp]

/-- Settles O46: whether an ESC is pending selects the half of R161, and the byte the case in it. -/
theorem decByteFollowsDecoderStep : Obligations.DecByteFollowsDecoderStep := by
  intro b s
  refine ⟨s.decStep b, exec_decByte b s, ?_, ?_, ?_, ?_, ?_, ?_, ?_⟩
  · rintro hesc rfl; rw [decStep_of_escaped hesc, decEscaped_end]; rfl
  · rintro hesc rfl; rw [decStep_of_escaped hesc, decEscaped_esc_end]
  · rintro hesc rfl; rw [decStep_of_escaped hesc, decEscaped_esc_esc]
  · intro hesc h0 h1 h2; rw [decStep_of_escaped hesc, decEscaped_of_invalid h0 h1 h2]; rfl
  · rintro hesc rfl; rw [decStep_of_plain hesc, decPlain_end]
  · rintro hesc rfl; rw [decStep_of_plain hesc, decPlain_esc]
  · intro hesc h0 h1; rw [decStep_of_plain hesc, decPlain_of_unmarked h0 h1]

/-- An END closes the frame; one that comes after an ESC notes a bad escape first (R161, R171). -/
theorem decStep_end_eq_finishFrame (s : State) :
    ∃ u : State, s.decStep SLIP_END = u.finishFrame ∧ u.cfg = s.cfg ∧ u.rx_buf = s.rx_buf ∧
      u.rx_drop = s.rx_drop ∧ u.rxq = s.rxq ∧ u.rx_bad = (s.rx_bad || s.rx_esc) := by
  cases hesc : s.rx_esc
  · exact ⟨s, decStep_of_plain hesc _, rfl, rfl, rfl, rfl, (Bool.or_false _).symm⟩
  · exact ⟨_, decStep_of_escaped hesc _, rfl, rfl, rfl, rfl, (Bool.or_true _).symm⟩

/-- Settles O54: closing a frame clears the carry-over state, and queues what the END found of it. -/
theorem endResynchronises : Obligations.EndResynchronises := by
  intro s
  obtain ⟨u, hu, hcfg, hbuf, hdrop, hq, hbad⟩ := decStep_end_eq_finishFrame s
  refine ⟨_, exec_decByte SLIP_END s, ?_⟩
  rw [hu]
  refine ⟨finishFrame_rx_buf u, finishFrame_rx_esc u, finishFrame_rx_drop u, finishFrame_rx_bad u, ?_⟩
  rw [← hcfg, ← hbuf, ← hdrop, ← hq, ← hbad]
  exact finishFrame_rxq u

/-! ### The queue's operations (R165, R166) -/

/-- Settles O49: an empty queue stays empty under `tail`, and a queue with a head answers that head. -/
theorem decPopResult : Obligations.DecPopResult := by
  refine fun s => ⟨fun hq => ?_, fun e q hq => ?_⟩
  · rw [exec_eq_after]
    simp [after, State.respond, popResponse, hq]
  · rw [exec_eq_after, after_decPop_of_cons hq]
    rfl

/-- Settles O51: `clearReceive` writes the receive side alone. -/
theorem decClrResult : Obligations.DecClrResult := fun s => exec_eq_after .decClr s

end Sys2Proof.Machine
end

section
/-! PROOFS. The decoder undoes the encoder: fed the frames of payloads, it queues the payloads (43_slip_decoder.md
R170). -/

namespace Sys2Proof.Machine

open Sys2Proof.Safety

/-! ### Received bytes, apart from the responses to them -/

/-- The decoder after a sequence of received bytes. -/
def State.decAll (bs : List Byte) (s : State) : State := bs.foldl (fun s b => s.decStep b) s

@[simp] theorem decAll_nil (s : State) : s.decAll [] = s := rfl

@[simp] theorem decAll_cons (b : Byte) (bs : List Byte) (s : State) : s.decAll (b :: bs) = (s.decStep b).decAll bs := rfl

@[simp] theorem decAll_append (bs cs : List Byte) (s : State) : s.decAll (bs ++ cs) = (s.decAll bs).decAll cs :=
  List.foldl_append

/-- The decoder does not read the response log. -/
theorem decAll_with_rsp (bs : List Byte) (s : State) (rsp : List Response) :
    { s with rsp := rsp }.decAll bs = { s.decAll bs with rsp := rsp } := by
  induction bs generalizing s with
  | nil => rfl
  | cons b bs ih =>
    have hstep : { s with rsp := rsp }.decStep b = { s.decStep b with rsp := rsp } := by
      rw [decStep_with_host b s s.tx rsp s.busy s.port, ← decStep_tx b s, ← decStep_busy b s, ← decStep_port b s]
    rw [decAll_cons, hstep, ih, decAll_cons]

/-- DEC_BYTEs issued one after the other: the decoder takes the bytes, and each is answered `none`. -/
theorem afterAll_map_decByte (bs : List Byte) (s : State) :
    afterAll (bs.map .decByte) s =
      { s.decAll bs with rsp := s.rsp ++ List.replicate bs.length .none } := by
  induction bs generalizing s with
  | nil => simp
  | cons b bs ih =>
    rw [List.map_cons, afterAll_cons, after, ih, State.respond, decAll_with_rsp]
    simp [List.replicate_succ]

/-! ### The wire form of a payload inside a frame -/

/-- A bound with room for one more is not reached. -/
theorem bound_ne_of_succ_le {bound : Option Nat} {len : Nat} (h : ∀ n, bound = some n → len + 1 ≤ n) :
    bound ≠ some len := fun heq => Nat.not_succ_le_self len (h len heq)

/-- The wire form of a byte stores that byte, if the frame has room for it. -/
theorem decAll_slipEsc {s : State} (hesc : s.rx_esc = false) (hdrop : s.rx_drop = false)
    (hroom : s.cfg.MAX_FRAME ≠ some s.rx_buf.length) (b : Byte) :
    s.decAll (slipEsc b) = { s with rx_buf := s.rx_buf ++ [b] } := by
  have pair (c : Byte) : s.decAll [SLIP_ESC, c] = s.decEscaped c := by
    rw [decAll_cons, decStep_of_plain hesc, decPlain_esc, decAll_cons, decStep_of_escaped rfl, decAll_nil, ← hesc]
  obtain ⟨rfl, h⟩ | ⟨rfl, h⟩ | ⟨hend, hne, h⟩ := slipEsc_cases b
  · rw [h, pair, decEscaped_esc_end, rxStore_of_room hdrop hroom]
  · rw [h, pair, decEscaped_esc_esc, rxStore_of_room hdrop hroom]
  · rw [h, decAll_cons, decAll_nil, decStep_of_plain hesc, decPlain_of_unmarked hend hne, rxStore_of_room hdrop hroom]

/-- An escaped payload is stored as it was sent, if the frame has room for it. -/
theorem decAll_slipEscAll {s : State} (hesc : s.rx_esc = false) (hdrop : s.rx_drop = false) {p : List Byte}
    (hroom : ∀ n, s.cfg.MAX_FRAME = some n → s.rx_buf.length + p.length ≤ n) :
    s.decAll (slipEscAll p) = { s with rx_buf := s.rx_buf ++ p } := by
  induction p generalizing s with
  | nil => simp
  | cons b p ih =>
    have hb : s.cfg.MAX_FRAME ≠ some s.rx_buf.length := bound_ne_of_succ_le fun n hn => by
      have := hroom n hn
      rw [List.length_cons] at this
      omega
    have hp : ∀ n, s.cfg.MAX_FRAME = some n → (s.rx_buf ++ [b]).length + p.length ≤ n := by
      simpa [Nat.add_assoc, Nat.add_comm 1] using hroom
    calc s.decAll (slipEscAll (b :: p))
      _ = { s with rx_buf := s.rx_buf ++ [b] }.decAll (slipEscAll p) := by
        rw [slipEscAll_cons, decAll_append, decAll_slipEsc hesc hdrop hb]
      _ = { s with rx_buf := s.rx_buf ++ [b] ++ p } :=
        ih (s := { s with rx_buf := s.rx_buf ++ [b] }) hesc hdrop hp
      _ = { s with rx_buf := s.rx_buf ++ b :: p } := by rw [List.append_assoc, List.singleton_append]

/-! ### A frame, from between frames -/

/-- The decoder carries nothing over from the bytes before (R26). -/
structure BetweenFrames (s : State) : Prop where
  buf : s.rx_buf = []
  esc : s.rx_esc = false
  drop : s.rx_drop = false
  bad : s.rx_bad = false

/-- In a state that meets the invariants RXPART = 0 says so (R26). -/
theorem betweenFrames_of_inv {s : State} (hinv : Inv s) (h : s.rxpart = false) : BetweenFrames s := by
  obtain ⟨-, hbit, -⟩ := statusByteLayout s
  obtain ⟨hbuf, hesc, hdrop, hbad⟩ := (rxpartClearMeansBetweenFrames s hinv).mp (hbit.trans h)
  exact ⟨hbuf, hesc, hdrop, hbad⟩

theorem BetweenFrames.with_rxq {s : State} (h : BetweenFrames s) (q : List Entry) : BetweenFrames { s with rxq := q } :=
  ⟨h.buf, h.esc, h.drop, h.bad⟩

theorem BetweenFrames.clearCarryOver_eq {s : State} (h : BetweenFrames s) : s.clearCarryOver = s := by
  cases s with
  | mk =>
    obtain ⟨rfl, rfl, rfl, rfl⟩ := h
    rfl

/-- The END that may open a frame closes an empty one, which leaves no trace. -/
theorem BetweenFrames.decAll_frameLead {s : State} (h : BetweenFrames s) (lead : Bool) :
    s.decAll (frameLead lead) = s := by
  cases lead with
  | false => rfl
  | true =>
    calc s.decAll [SLIP_END]
      _ = s.finishFrame := decStep_of_plain h.esc _
      _ = s := (finishFrame_of_nothing (.inr h.buf)).trans h.clearCarryOver_eq

/-- What the frames of payloads leave in the queue: the non-empty payloads, unmarked. -/
def sentEntries (ps : List (List Byte)) : List Entry := (ps.filter (· ≠ [])).map fun p => ⟨p, false⟩

theorem sentEntries_cons (p : List Byte) (ps : List (List Byte)) :
    sentEntries (p :: ps) = sentEntries [p] ++ sentEntries ps := by
  rw [sentEntries, sentEntries, sentEntries, ← List.map_append, ← List.filter_append, List.singleton_append]

theorem sentEntries_singleton {p : List Byte} (h : p ≠ []) : sentEntries [p] = [⟨p, false⟩] := by
  simp [sentEntries, h]

/-- A frame that fits adds its payload to the queue and changes nothing else. -/
theorem BetweenFrames.decAll_encodeFrame {s : State} (h : BetweenFrames s) (lead : Bool) {p : List Byte}
    (hfit : ∀ n, s.cfg.MAX_FRAME = some n → p.length ≤ n)
    (hroom : ∀ n, s.cfg.QUEUE_DEPTH = some n → s.rxq.length + (sentEntries [p]).length ≤ n) :
    s.decAll (encodeFrame lead p) = { s with rxq := s.rxq ++ sentEntries [p] } := by
  have hpayload : s.decAll (slipEscAll p) = { s with rx_buf := p } := by
    rw [decAll_slipEscAll h.esc h.drop (by simpa [h.buf] using hfit), h.buf, List.nil_append]
  have hframe : s.decAll (encodeFrame lead p) = { s with rx_buf := p }.finishFrame := by
    rw [encodeFrame, decAll_append, decAll_append, h.decAll_frameLead, hpayload]
    exact decStep_of_plain (s := { s with rx_buf := p }) h.esc SLIP_END
  rw [hframe]
  by_cases hp : p = []
  · subst hp
    rw [finishFrame_of_nothing (.inr rfl)]
    exact h.clearCarryOver_eq.trans (by simp [sentEntries])
  · rw [sentEntries_singleton hp] at hroom ⊢
    calc { s with rx_buf := p }.finishFrame
      _ = { s.clearCarryOver with rxq := s.rxq ++ [⟨p, s.rx_bad⟩] } :=
        finishFrame_of_room (s := { s with rx_buf := p }) h.drop hp (bound_ne_of_succ_le hroom)
      _ = { s with rxq := s.rxq ++ [⟨p, false⟩] } := by simp only [h.clearCarryOver_eq, h.bad]

/-! ### Frames one after the other -/

/-- Frames that fit add their payloads to the queue in order. -/
theorem BetweenFrames.decAll_frames {s : State} (h : BetweenFrames s) (lead : Bool) {ps : List (List Byte)}
    (hfit : ∀ n, s.cfg.MAX_FRAME = some n → ∀ p ∈ ps, p.length ≤ n)
    (hroom : ∀ n, s.cfg.QUEUE_DEPTH = some n → s.rxq.length + (sentEntries ps).length ≤ n) :
    s.decAll (ps.flatMap (encodeFrame lead)) = { s with rxq := s.rxq ++ sentEntries ps } := by
  induction ps generalizing s with
  | nil => simp [sentEntries]
  | cons p ps ih =>
    rw [sentEntries_cons] at hroom ⊢
    simp only [List.length_append] at hroom
    have hhead := h.decAll_encodeFrame lead (fun n hn => hfit n hn p List.mem_cons_self)
      (fun n hn => by have := hroom n hn; omega)
    have hrest : ∀ n, s.cfg.QUEUE_DEPTH = some n →
        (s.rxq ++ sentEntries [p]).length + (sentEntries ps).length ≤ n := by
      simpa only [List.length_append, Nat.add_assoc] using hroom
    rw [List.flatMap_cons, decAll_append, hhead, ← List.append_assoc]
    exact ih (h.with_rxq _) (fun n hn q hq => hfit n hn q (List.mem_cons_of_mem p hq)) hrest

/-- Fed to DEC_BYTE, frames that fit add their payloads to the queue, and each byte is answered `none`. -/
theorem BetweenFrames.afterAll_frames {s : State} (h : BetweenFrames s) (lead : Bool) {ps : List (List Byte)}
    (hfit : ∀ n, s.cfg.MAX_FRAME = some n → ∀ p ∈ ps, p.length ≤ n)
    (hroom : ∀ n, s.cfg.QUEUE_DEPTH = some n → s.rxq.length + (sentEntries ps).length ≤ n) :
    afterAll ((ps.flatMap (encodeFrame lead)).map .decByte) s = { s with
      rxq := s.rxq ++ sentEntries ps
      rsp := s.rsp ++ List.replicate (ps.flatMap (encodeFrame lead)).length .none } := by
  rw [afterAll_map_decByte, h.decAll_frames lead hfit hroom]

/-- Settles O57, by induction on the payloads; one payload is then the head that DEC_POP returns. -/
theorem framesRoundTrip : Obligations.FramesRoundTrip := by
  refine ⟨fun lead ps s hinv hpart hfit hroom => ?_, fun lead p s hinv hpart hq hp hfit hlegal => ?_⟩
  · rw [runInstrs_eq_afterAll]
    exact congrArg _ ((betweenFrames_of_inv hinv hpart).afterAll_frames lead hfit (by simpa [sentEntries] using hroom))
  · have hroom : ∀ n, s.cfg.QUEUE_DEPTH = some n → s.rxq.length + (sentEntries [p]).length ≤ n := by
      intro n hn
      obtain ⟨-, hdepth⟩ := not_or.mp ((legal_iff s.cfg).mp hlegal)
      have hpos : n ≠ 0 := by rintro rfl; exact hdepth hn
      rw [hq, sentEntries_singleton hp]
      exact Nat.one_le_iff_ne_zero.mpr hpos
    have hone := (betweenFrames_of_inv hinv hpart).afterAll_frames lead (ps := [p]) (by simpa using hfit) hroom
    rw [List.flatMap_singleton, hq, sentEntries_singleton hp] at hone
    refine ⟨_, runInstrs_eq_afterAll _ s, ?_⟩
    rw [afterAll_append, hone, afterAll_cons, afterAll_nil, after_decPop_of_cons rfl]
    exact ⟨rfl, rfl⟩

end Sys2Proof.Machine
end

section
/-! PROOFS. With an unbounded queue the operations between received bytes do not change the payloads
(43_slip_decoder.md R169): a run and the run of its received bytes alone stay in step. -/

namespace Sys2Proof.Machine

/-- `t` receives the same frame as `u`, and holds what is queued in `u` less the entries `out`, which it has delivered
already. -/
structure InStep (out : List Entry) (t u : State) : Prop where
  cfg : t.cfg = u.cfg
  buf : t.rx_buf = u.rx_buf
  esc : t.rx_esc = u.rx_esc
  drop : t.rx_drop = u.rx_drop
  bad : t.rx_bad = u.rx_bad
  queue : out ++ t.rxq = u.rxq

namespace InStep

variable {out : List Entry} {t u : State}

theorem refl (s : State) : InStep [] s s := ⟨rfl, rfl, rfl, rfl, rfl, rfl⟩

theorem with_rx_esc (h : InStep out t u) (esc : Bool) : InStep out { t with rx_esc := esc } { u with rx_esc := esc } :=
  ⟨h.cfg, h.buf, rfl, h.drop, h.bad, h.queue⟩

theorem noteBadEscape (h : InStep out t u) : InStep out t.noteBadEscape u.noteBadEscape :=
  ⟨h.cfg, h.buf, h.esc, h.drop, rfl, h.queue⟩

theorem rxStore (h : InStep out t u) (v : Byte) : InStep out (t.rxStore v) (u.rxStore v) := by
  have hmax : t.cfg.MAX_FRAME = some t.rx_buf.length ↔ u.cfg.MAX_FRAME = some u.rx_buf.length := by rw [h.cfg, h.buf]
  obtain ⟨hd, hu⟩ | ⟨hd, hm, hu⟩ | ⟨hd, hm, hu⟩ := rxStore_cases v u
  · rw [hu, rxStore_of_drop (h.drop.trans hd)]
    exact h
  · rw [hu, rxStore_of_full (h.drop.trans hd) (hmax.mpr hm)]
    exact ⟨h.cfg, rfl, h.esc, rfl, h.bad, h.queue⟩
  · rw [hu, rxStore_of_room (h.drop.trans hd) (mt hmax.mp hm)]
    exact ⟨h.cfg, congrArg (· ++ [v]) h.buf, h.esc, h.drop, h.bad, h.queue⟩

/-- Without a bound the queue's length decides nothing, so what was delivered from it makes no difference. -/
theorem finishFrame (h : InStep out t u) (hdepth : u.cfg.QUEUE_DEPTH = none) :
    InStep out t.finishFrame u.finishFrame := by
  have hrxq : out ++ t.finishFrame.rxq = u.finishFrame.rxq := by
    rw [finishFrame_rxq, finishFrame_rxq, h.cfg, hdepth, h.drop, h.buf, h.bad, ← h.queue]
    simp only [reduceCtorEq, or_false]
    split_ifs
    · rfl
    · exact (List.append_assoc _ _ _).symm
  exact ⟨by simp [h.cfg], by simp, by simp, by simp, by simp, hrxq⟩

theorem decEscaped (h : InStep out t u) (hdepth : u.cfg.QUEUE_DEPTH = none) (b : Byte) :
    InStep out (t.decEscaped b) (u.decEscaped b) := by
  unfold State.decEscaped
  split_ifs
  · exact h.noteBadEscape.finishFrame hdepth
  · exact h.rxStore SLIP_END
  · exact h.rxStore SLIP_ESC
  · exact h.noteBadEscape.rxStore b

theorem decPlain (h : InStep out t u) (hdepth : u.cfg.QUEUE_DEPTH = none) (b : Byte) :
    InStep out (t.decPlain b) (u.decPlain b) := by
  unfold State.decPlain
  split_ifs
  · exact h.finishFrame hdepth
  · exact h.with_rx_esc true
  · exact h.rxStore b

theorem decStep (h : InStep out t u) (hdepth : u.cfg.QUEUE_DEPTH = none) (b : Byte) :
    InStep out (t.decStep b) (u.decStep b) := by
  unfold State.decStep
  rw [h.esc]
  split_ifs
  · exact (h.with_rx_esc false).decEscaped hdepth b
  · exact h.decPlain hdepth b

/-- A response that delivers no entry adds nothing to what was delivered. -/
theorem of_undelivered (h : InStep out t u) {r : Response} (hr : deliveredEntry r = none) :
    InStep (out ++ [r].filterMap deliveredEntry) t u := by
  rwa [List.filterMap_cons_none hr, List.filterMap_nil, List.append_nil]

theorem decByte (h : InStep out t u) (hdepth : u.cfg.QUEUE_DEPTH = none) (b : Byte) :
    InStep out (after (.decByte b) t) (after (.decByte b) u) := by
  obtain ⟨hcfg, hbuf, hesc, hdrop, hbad, hq⟩ := h.decStep hdepth b
  exact ⟨hcfg, hbuf, hesc, hdrop, hbad, hq⟩

/-- DEC_POP delivers the head of the queue, which leaves what was delivered and what is still queued the same. -/
theorem decPop (h : InStep out t u) :
    InStep (out ++ [popResponse t.rxq].filterMap deliveredEntry) (after .decPop t) u := by
  refine ⟨h.cfg, h.buf, h.esc, h.drop, h.bad, ?_⟩
  calc out ++ [popResponse t.rxq].filterMap deliveredEntry ++ t.rxq.tail
    _ = out ++ t.rxq := by
      cases t.rxq with
      | nil => simp [popResponse, deliveredEntry]
      | cons e q => simp [popResponse, deliveredEntry]
    _ = u.rxq := h.queue

/-- RESET and DEC_CLR apart, an operation keeps in step with its received byte, if it has one. -/
theorem after {i : Instr} (h : InStep out t u) (hdepth : u.cfg.QUEUE_DEPTH = none) (hreset : i ≠ .reset)
    (hclr : i ≠ .decClr) :
    ∃ rs, (after i t).rsp = t.rsp ++ rs ∧
      InStep (out ++ rs.filterMap deliveredEntry) (after i t) (afterAll ((receivedByte i).toList.map .decByte) u) := by
  cases i with
  | reset => exact absurd rfl hreset
  | decClr => exact absurd rfl hclr
  | decByte b =>
    refine ⟨[.none], ?_, (h.decByte hdepth b).of_undelivered rfl⟩
    exact congrArg (· ++ [Response.none]) (decStep_rsp b t)
  | decPop => exact ⟨_, rfl, h.decPop⟩
  | _ =>
    refine ⟨[_], rfl, of_undelivered ?_ rfl⟩
    exact ⟨h.cfg, h.buf, h.esc, h.drop, h.bad, h.queue⟩

theorem afterAll {is : List Instr} (h : InStep out t u) (hdepth : u.cfg.QUEUE_DEPTH = none)
    (his : ∀ i ∈ is, i ≠ .reset ∧ i ≠ .decClr) :
    ∃ rs, (afterAll is t).rsp = t.rsp ++ rs ∧
      InStep (out ++ rs.filterMap deliveredEntry) (afterAll is t)
        (afterAll ((is.filterMap receivedByte).map .decByte) u) := by
  induction is generalizing out t u with
  | nil => exact ⟨[], (List.append_nil _).symm, by simpa using h⟩
  | cons i is ih =>
    obtain ⟨⟨hreset, hclr⟩, hrest⟩ := List.forall_mem_cons.mp his
    obtain ⟨rs₁, hrsp₁, h₁⟩ := h.after hdepth hreset hclr
    obtain ⟨rs₂, hrsp₂, h₂⟩ := ih h₁ (by rwa [afterAll_cfg]) hrest
    have hbytes : (i :: is).filterMap receivedByte = (receivedByte i).toList ++ is.filterMap receivedByte := by
      cases hb : receivedByte i with
      | none => exact List.filterMap_cons_none hb
      | some b => exact List.filterMap_cons_some hb
    refine ⟨rs₁ ++ rs₂, by rw [afterAll_cons, hrsp₂, hrsp₁, List.append_assoc], ?_⟩
    rw [hbytes, List.map_append, afterAll_append, afterAll_cons, List.filterMap_append, ← List.append_assoc]
    exact h₂

end InStep

/-- Settles O58: both runs start in step, and no operation but RESET and DEC_CLR puts them out of it. -/
theorem interleavingDoesNotChangePayloads : Obligations.InterleavingDoesNotChangePayloads := by
  intro is s hdepth his
  obtain ⟨rs, hrsp, h⟩ := (InStep.refl s).afterAll hdepth his
  exact ⟨_, _, rs, runInstrs_eq_afterAll _ s, runInstrs_eq_afterAll _ s, hrsp, h.queue, h.buf, h.esc, h.drop, h.bad⟩

end Sys2Proof.Machine
end

section
/-! PROOFS. The classifier of payloads, and what DEC_POP reports of them (44_messages.md R190, R191). -/

namespace Sys2Proof.Machine

open Sys2Proof.Safety

/-- A leading byte that is none of the five codes of R79 has no token of its own. -/
theorem tokenOf_of_unlisted {b : Byte} (h : b ∉ [CODE_CONFIRM_START, CODE_CONFIRM_INFO, CODE_REQUEST_LINE,
    CODE_CONFIRM_TEST, CODE_INDICATE_STATE]) : tokenOf b = .unknown := by
  simp only [List.mem_cons, List.not_mem_nil, or_false, not_or] at h
  obtain ⟨hstart, hinfo, hline, htest, hstate⟩ := h
  rw [tokenOf, if_neg hstart, if_neg hinfo, if_neg hline, if_neg htest, if_neg hstate]

theorem tokenOf_ne_none (b : Byte) : tokenOf b ≠ .none := by
  unfold tokenOf
  split_ifs <;> exact nofun

theorem classify_of_unknown {b : Byte} (h : tokenOf b = .unknown) (rest : List Byte) :
    classify (b :: rest) = (.unknown, 0x00#8) := if_pos h

theorem classify_of_known {b : Byte} (h : tokenOf b ≠ .unknown) (rest : List Byte) :
    classify (b :: rest) = (tokenOf b, rest.headD 0x00#8) := if_neg h

/-- Settles O52: each code is evaluated, and any other leading byte is unknown. -/
theorem classifyTable : Obligations.ClassifyTable :=
  ⟨rfl, fun rest => ⟨rfl, rfl, rfl, rfl, rfl, fun _ hb => classify_of_unknown (tokenOf_of_unlisted hb) rest⟩⟩

theorem classify_cons_token (b : Byte) (rest : List Byte) : (classify (b :: rest)).1 = tokenOf b := by
  by_cases h : tokenOf b = .unknown
  · rw [classify_of_unknown h, h]
  · rw [classify_of_known h]

/-- The token of a payload is None for the empty payload alone (R190). -/
theorem classify_token_eq_none_iff {p : List Byte} : (classify p).1 = .none ↔ p = [] := by
  cases p with
  | nil => exact iff_of_true rfl rfl
  | cons b rest =>
    rw [classify_cons_token]
    exact iff_of_false (tokenOf_ne_none b) (List.cons_ne_nil b rest)

/-- Settles O53: an entry at the head of the queue holds a byte (R23.4), so its token is not None. -/
theorem noneTokenOnlyFromEmptyQueue : Obligations.NoneTokenOnlyFromEmptyQueue := by
  intro s hinv
  obtain ⟨hempty, hhead⟩ := decPopResult s
  cases hq : s.rxq with
  | nil => exact ⟨_, _, _, _, _, _, hempty hq, rfl, iff_of_true rfl rfl, iff_of_false nofun (not_not.mpr rfl), nofun⟩
  | cons e q =>
    have hlen : 1 ≤ e.payload.length := hinv.entriesNonempty e (hq ▸ List.mem_cons_self)
    have hpayload : e.payload ≠ [] := List.ne_nil_of_length_pos hlen
    exact ⟨_, _, _, _, _, _, hhead e q hq, rfl,
      iff_of_false (mt classify_token_eq_none_iff.mp hpayload) (List.cons_ne_nil e q),
      iff_of_true rfl (List.cons_ne_nil e q), fun _ => hlen⟩

end Sys2Proof.Machine
end

section
/-! PROOFS. The pseudo-instructions that send a frame, with and without its checksum (30_encoding.md R84,
44_messages.md R192 to R196). -/

namespace Sys2Proof.Machine

/-! ### A frame of literal bytes -/

/-- Operations built from bytes give the bytes back, where `operand` reads what `build` was given. -/
theorem filterMap_map_of_reads_back {build : Byte → Instr} {operand : Instr → Option Byte}
    (h : ∀ b, operand (build b) = some b) (p : List Byte) : (p.map build).filterMap operand = p := by
  rw [List.filterMap_map, show operand ∘ build = some from funext h, List.filterMap_some]

/-- ENC_FRAME appends the frame of its operands (R84). -/
theorem runInstrs_encFrameInstrs (p : List Byte) (s : State) :
    ∃ t, runInstrs (encFrameInstrs p) s = .next t ∧ t.tx = s.tx ++ encodeFrame s.cfg.LEADING_END p := by
  have h := frameEqualsFunction (p.map .encByte) s (by simp)
  rwa [filterMap_map_of_reads_back fun _ => rfl] at h

/-! ### A frame that ends in its checksum -/

/-- The accumulator is cleared, the payload's bytes are escaped and folded, and ENC_CRC appends what was folded. -/
def checksumFrameInstrs (p : List Byte) : List Instr :=
  [.crcClr, .encBegin] ++ p.map .encCrcb ++ [.encCrc, .encEnd]

theorem expand_sendLine (ln : Byte) (ds : List Byte) (f : Byte) :
    (Pseudo.sendLine ln ds f).expand = checksumFrameInstrs (lineBody ln ds f) := by
  simp [Pseudo.expand, checksumFrameInstrs, lineBody]

/-- Bytes sent by ENC_CRCB are folded in order. -/
theorem afterAll_map_encCrcb_crc (p : List Byte) (s : State) :
    (afterAll (p.map .encCrcb) s).crc = p.foldl crcStep s.crc := by
  rw [afterAll_crc (by simp), filterMap_map_of_reads_back fun _ => rfl]

/-- Bytes sent by ENC_CRCB are escaped in order. -/
theorem afterAll_map_encCrcb_tx (p : List Byte) (s : State) :
    (afterAll (p.map .encCrcb) s).tx = s.tx ++ slipEscAll p := by
  rw [afterAll_tx (by simp), filterMap_map_of_reads_back fun _ => rfl]

theorem afterAll_crcClr_encBegin_crc (s : State) : (afterAll [.crcClr, .encBegin] s).crc = CRC_INIT := rfl

theorem afterAll_crcClr_encBegin_tx (s : State) :
    (afterAll [.crcClr, .encBegin] s).tx = s.tx ++ frameLead s.cfg.LEADING_END := rfl

theorem afterAll_encCrc_encEnd_crc (s : State) : (afterAll [.encCrc, .encEnd] s).crc = s.crc := rfl

/-- ENC_CRC escapes the accumulator as one more payload byte (R145). -/
theorem afterAll_encCrc_encEnd_tx (s : State) :
    (afterAll [.encCrc, .encEnd] s).tx = s.tx ++ slipEsc s.crc ++ [SLIP_END] := rfl

/-- CRC_CLR starts the fold where `compute` does, and neither ENC_CRC nor ENC_END writes the accumulator. -/
theorem afterAll_checksumFrameInstrs_crc (p : List Byte) (s : State) :
    (afterAll (checksumFrameInstrs p) s).crc = compute p := by
  rw [checksumFrameInstrs, afterAll_append, afterAll_append, afterAll_encCrc_encEnd_crc, afterAll_map_encCrcb_crc,
    afterAll_crcClr_encBegin_crc, compute]

/-- What ENC_CRC appends is the checksum of the bytes before it. -/
theorem afterAll_checksumFrameInstrs_tx (p : List Byte) (s : State) :
    (afterAll (checksumFrameInstrs p) s).tx = s.tx ++ encodeFrame s.cfg.LEADING_END (p ++ [compute p]) := by
  calc (afterAll (checksumFrameInstrs p) s).tx
    _ = s.tx ++ frameLead s.cfg.LEADING_END ++ slipEscAll p ++ slipEsc (compute p) ++ [SLIP_END] := by
      rw [checksumFrameInstrs, afterAll_append, afterAll_append, afterAll_encCrc_encEnd_tx, afterAll_map_encCrcb_tx,
        afterAll_map_encCrcb_crc, afterAll_crcClr_encBegin_tx, afterAll_crcClr_encBegin_crc, compute]
    _ = s.tx ++ encodeFrame s.cfg.LEADING_END (p ++ [compute p]) := by simp [encodeFrame]

/-- Settles O44: three forms are the frame of a literal payload, and SEND_LINE that of its body and checksum. -/
theorem sendPseudoInstructionsEmitFrames : Obligations.SendPseudoInstructionsEmitFrames := by
  refine ⟨fun sn en c => runInstrs_encFrameInstrs _, runInstrs_encFrameInstrs _, runInstrs_encFrameInstrs _,
    fun ln f ds s => ?_⟩
  rw [expand_sendLine]
  exact ⟨_, runInstrs_eq_afterAll _ s, afterAll_checksumFrameInstrs_crc _ s, afterAll_checksumFrameInstrs_tx _ s⟩

end Sys2Proof.Machine
end

section
/-! PROOFS. Between operations the block holds its state (60_exceptions.md R222). -/

namespace Sys2Proof.Machine

open Sys2Proof.Safety

theorem step_of_port_empty {s : State} (h : Ready s) (hport : s.port = []) : step s = .next s := by
  rw [step_of_ready h, stepIdle, hport]

/-- Settles O12: a ready block with no move to come steps to itself. -/
theorem idleBlockHoldsItsState : Obligations.IdleBlockHoldsItsState := fun _ n hready hport =>
  core_run_of_step_self (step_of_port_empty hready hport) n

end Sys2Proof.Machine
end

section
/-! PROOFS. The conditions that set the sticky bits (60_exceptions.md R211), and those that one received byte raises
together (R214). -/

namespace Sys2Proof.Machine

/-! ### The decoder's sticky bits after one received byte -/

theorem decEscaped_escerr (b : Byte) (s : State) : (s.decEscaped b).escerr = true ↔
    s.escerr = true ∨ (b ≠ SLIP_ESC_END ∧ b ≠ SLIP_ESC_ESC) := by
  by_cases hescEnd : b = SLIP_ESC_END
  · simp [hescEnd]
  by_cases hescEsc : b = SLIP_ESC_ESC
  · simp [hescEsc]
  by_cases hend : b = SLIP_END
  · simp [hend, slip_esc_end_ne_end.symm, slip_esc_esc_ne_end.symm]
  · simp [decEscaped_of_invalid hend hescEnd hescEsc, hescEnd, hescEsc]

theorem decPlain_escerr (b : Byte) (s : State) : (s.decPlain b).escerr = s.escerr := by
  by_cases hend : b = SLIP_END
  · simp [hend]
  by_cases hesc : b = SLIP_ESC
  · simp [hesc]
  · rw [decPlain_of_unmarked hend hesc, rxStore_escerr]

/-- `escerr` is set by a byte after an ESC that completes no escape pair. -/
theorem decStep_escerr (b : Byte) (s : State) : (s.decStep b).escerr = true ↔
    s.escerr = true ∨ (s.rx_esc = true ∧ b ≠ SLIP_ESC_END ∧ b ≠ SLIP_ESC_ESC) := by
  cases hesc : s.rx_esc
  · simp [decStep_of_plain hesc, decPlain_escerr]
  · simp [decStep_of_escaped hesc, decEscaped_escerr]

/-- `frmovf` is set by a byte that is stored, neither an END nor an ESC that opens a pair, beyond the frame's limit. -/
theorem decStep_frmovf (b : Byte) (s : State) : (s.decStep b).frmovf = true ↔
    s.frmovf = true ∨ (b ≠ SLIP_END ∧ (b = SLIP_ESC → s.rx_esc = true) ∧ s.rx_drop = false ∧
      s.cfg.MAX_FRAME = some s.rx_buf.length) := by
  obtain ⟨hend, -, hs⟩ | ⟨hend, -, hs⟩ | ⟨hesc, hplain, hs⟩ | ⟨hend, hpend, -, -, hs⟩ | ⟨hend, hpend, v, hs⟩ |
    ⟨hend, hesc, -, hs⟩ := decStep_cases b s <;> rw [hs]
  · simp [hend]
  · simp [hend]
  · simp [hesc, hplain]
  · simp [rxStore_frmovf, hend, hpend]
  · simp [rxStore_frmovf, hend, hpend]
  · simp [rxStore_frmovf, hend, hesc]

/-- `qovf` is set by an END that closes a frame while the queue is full. -/
theorem decStep_qovf (b : Byte) (s : State) : (s.decStep b).qovf = true ↔
    s.qovf = true ∨ (b = SLIP_END ∧ s.rx_drop = false ∧ s.rx_buf ≠ [] ∧
      s.cfg.QUEUE_DEPTH = some s.rxq.length) := by
  obtain ⟨hend, -, hs⟩ | ⟨hend, -, hs⟩ | ⟨hesc, -, hs⟩ | ⟨hend, -, -, -, hs⟩ | ⟨hend, -, v, hs⟩ |
    ⟨hend, -, -, hs⟩ := decStep_cases b s <;> rw [hs]
  · simp [finishFrame_qovf, hend]
  · simp [finishFrame_qovf, hend]
  · simp [hesc]
  · simp [hend]
  · simp [hend]
  · simp [hend]

/-! ### Which operation sets a sticky bit -/

@[simp] theorem stickyAfter_false (d : Byte) (k : Nat) : stickyAfter d k false = false := ite_self false

/-- DEC_BYTE apart, no operation sets a sticky bit of the decoder. -/
theorem after_keeps_decoderSticky_clear {i : Instr} (s : State) (h : ∀ b, i ≠ .decByte b) :
    (s.escerr = false → (after i s).escerr = false) ∧ (s.frmovf = false → (after i s).frmovf = false) ∧
    (s.qovf = false → (after i s).qovf = false) := by
  cases i with
  | decByte b => exact absurd rfl (h b)
  | statClr d => simp +contextual [after]
  | reset => exact ⟨fun _ => rfl, fun _ => rfl, fun _ => rfl⟩
  | _ => exact ⟨id, id, id⟩

/-- A clear ILLOP is set by the reserved opcodes alone (R104). -/
theorem after_illop_of_clear {s : State} (h : s.illop = false) (i : Instr) :
    (after i s).illop = true ↔ ∃ op, i = .reserved op := by
  cases i with
  | reserved op => exact iff_of_true rfl ⟨op, rfl⟩
  | statClr d | decByte b => simp [after, h]
  | reset => simp [after]
  | _ => exact iff_of_false (by simp [after, h]) nofun

/-- Settles O27: the decoder step sets its three bits by their conditions, no other operation sets one of them, and ILLOP
is set by the reserved opcodes. -/
theorem stickyBitsSetExactlyByTheirCause : Obligations.StickyBitsSetExactlyByTheirCause := by
  intro i s t hexec
  obtain rfl := after_of_exec hexec
  by_cases hdec : ∃ b, i = .decByte b
  · obtain ⟨b, rfl⟩ := hdec
    refine ⟨fun h => ?_, fun h => ?_, fun h => ?_, fun h => after_illop_of_clear h _⟩
    · simp [after, decStep_escerr, h]
    · simp [after, decStep_frmovf, h]
    · simp [after, decStep_qovf, h]
  · obtain ⟨hescerr, hfrmovf, hqovf⟩ := after_keeps_decoderSticky_clear s (not_exists.mp hdec)
    refine ⟨fun h => ?_, fun h => ?_, fun h => ?_, fun h => after_illop_of_clear h i⟩
    · exact iff_of_false (by simp [hescerr h]) fun ⟨b, hb, _⟩ => hdec ⟨b, hb⟩
    · exact iff_of_false (by simp [hfrmovf h]) fun ⟨b, hb, _⟩ => hdec ⟨b, hb⟩
    · exact iff_of_false (by simp [hqovf h]) fun ⟨hb, _⟩ => hdec ⟨_, hb⟩

/-! ### Conditions of one byte together -/

/-- Settles O55: an ESC's successor notes the bad escape first, and then closes the frame or stores its byte as one that
follows no ESC. -/
theorem simultaneousConditions : Obligations.SimultaneousConditions := by
  refine ⟨fun s hesc hdrop hbuf => ?_, fun s hesc hdrop hbuf hfull => ?_,
    fun s b hesc hdrop hfull hend hescEnd hescEsc => ?_⟩
  · have hnothing := finishFrame_of_nothing (s := { s with rx_esc := false }.noteBadEscape) (.inr hbuf)
    rw [exec_decByte, decStep_of_escaped hesc, decEscaped_end, hnothing]
    simp [State.clearCarryOver, State.noteBadEscape, hbuf, hdrop]
  · have hreject := finishFrame_of_full (s := { s with rx_esc := false }.noteBadEscape) hdrop hbuf hfull
    rw [exec_decByte, decStep_of_escaped hesc, decEscaped_end, hreject]
    simp [State.clearCarryOver, State.noteBadEscape, hdrop]
  · have hdiscard := rxStore_of_full (s := { s with rx_esc := false }.noteBadEscape) hdrop hfull b
    rw [exec_decByte, decStep_of_escaped hesc, decEscaped_of_invalid hend hescEnd hescEsc, hdiscard]
    rfl

end Sys2Proof.Machine
end

section
/-! PROOFS. The reset input between and inside operations (70_reset_and_hazards.md R230, R231). -/

namespace Sys2Proof.Machine

open Sys2Proof.Safety

/-- A reset that comes next is served at once, whether or not an operation is in progress or waits for the host. -/
theorem step_reset (s : State) (hlegal : s.cfg.legal = true) (rest : List HostMove) :
    step { s with port := .reset :: rest } =
      .next { State.resetWith s.cfg with tx := s.stream, rsp := s.rsp, port := rest } := by
  rw [← stream_with_port s rest]
  cases s.busy with
  | none => exact step_reset_of_ready ⟨hlegal, rfl⟩ rfl
  | some op => exact step_of_busy hlegal rfl

/-- Between operations the stream is what the completed operations transmitted, so the reset input keeps just that. -/
theorem step_reset_between_operations {s : State} (h : Ready s) (rest : List HostMove) :
    step { s with port := .reset :: rest } =
      .next { State.resetWith s.cfg with tx := s.tx, rsp := s.rsp, port := rest } := by
  have hstep := step_reset s h.1 rest
  rwa [stream_of_idle h.2] at hstep

/-- Inside an operation the stream ends in the bytes the host has accepted from it, and the reset input keeps them. -/
theorem step_reset_inside_operation {s : State} {w : Word} (hlegal : s.cfg.legal = true) (k : Nat)
    (rest : List HostMove) :
    step { s with busy := some ⟨w, k⟩, port := .reset :: rest } =
      .next { State.resetWith s.cfg with
        tx := s.tx ++ (txBytes (decode w) s).take k, rsp := s.rsp, port := rest } :=
  step_reset { s with busy := some ⟨w, k⟩ } hlegal rest

/-- RESET in a ready block leaves what the reset input leaves, and responds. -/
theorem exec_reset_of_ready {s : State} (h : Ready s) :
    exec .reset s = .next { State.resetWith s.cfg with tx := s.tx, rsp := s.rsp ++ [.none], port := s.port } :=
  calc exec .reset s
    _ = exec .reset { s with busy := none } := by rw [← h.2]
    _ = _ := exec_eq_after .reset _

/-- Settles O16: inside an operation, the acceptances before the reset decide the prefix that stays on the stream. -/
theorem hardwareResetAtAnyPoint : Obligations.HardwareResetAtAnyPoint := by
  refine ⟨fun s rest hready => ⟨step_reset_between_operations hready rest, exec_reset_of_ready hready⟩,
    fun s w k rest hready hk => ?_⟩
  have hstep := step_reset_inside_operation (w := w) hready.1 k rest
  exact (core_run_add _ 1 (run_start_accepts hready hk (.reset :: rest))).trans (core_run_next 0 hstep)

end Sys2Proof.Machine
end
